-- ==== Sys2Proof/Word.lean ====
section
/-! DEFINITION. The word types of the IB7216 (spec 00_scope.md, "Conventions"). -/

namespace Sys2Proof

/-- One byte of host memory, of the packet store or of a frame. -/
abbrev Byte := BitVec 8

/-- A 32-bit register value or parameter word. -/
abbrev Word := BitVec 32

/-- A 64-bit host address (00_scope.md, "Byte order and addresses"). -/
abbrev Addr := BitVec 64

/-- The 64-bit value software places in a record and the part returns in its completion. -/
abbrev Tag := BitVec 64

/-- A stream number, 0 to 15. -/
abbrev StreamId := Fin 16

/-- A 16-bit cycle number, 0 to 65535; it wraps (R95). -/
abbrev CycleNum := BitVec 16

end Sys2Proof
end

