-- ==== Sys2Proof/Machine/Bytes.lean ====
section
/-! DEFINITION. Bytes and fields in little-endian order (00_scope.md, "Byte order and addresses"), and the check value
of R185. -/

namespace Sys2Proof.Machine

open Sys2Proof

/-- Byte `i` of a record that is read as one little-endian number. -/
def byteAt {n : Nat} (w : BitVec n) (i : Nat) : Byte := w.extractLsb' (8 * i) 8

/-- The field of `len` bytes from byte `i` on, as a number. -/
def fieldAt {n : Nat} (w : BitVec n) (i len : Nat) : Nat := (w.extractLsb' (8 * i) (8 * len)).toNat

/-- The address in the 8 bytes from byte `i` on. -/
def addrAt {n : Nat} (w : BitVec n) (i : Nat) : Addr := w.extractLsb' (8 * i) 64

/-- The 32-bit word in the 4 bytes from byte `i` on. -/
def wordAt {n : Nat} (w : BitVec n) (i : Nat) : Word := w.extractLsb' (8 * i) 32

/-- The `n` bytes of a value, least significant first. -/
def le : Nat → Nat → List Byte
  | 0, _ => []
  | n + 1, v => BitVec.ofNat 8 v :: le n (v / 256)

/-- The value of bytes that stand least significant first. -/
def leVal : List Byte → Nat
  | [] => 0
  | b :: bs => b.toNat + 256 * leVal bs

/-- The `n` bytes of a bit vector that is read as one little-endian number. -/
def bytesOf {w : Nat} (n : Nat) (v : BitVec w) : List Byte := le n v.toNat

/-- The list as exactly `n` bytes: what is beyond is cut, what is missing is zero. The memory port and the lane hand
over the bytes that were asked for or announced; a command's list of another length is read so
(notes/assumptions/4.md). -/
def fit (n : Nat) (bs : List Byte) : List Byte := bs.take n ++ List.replicate (n - bs.length) 0

/-- A number of bits written from its flags, least significant first. -/
def flags : List Bool → Nat
  | [] => 0
  | b :: bs => b.toNat + 2 * flags bs

/-- One bit of the division by the generator polynomial 04C11DB7h in reflected bit order (R185). -/
def crcBit (c : Word) : Word := if c.getLsbD 0 then (c >>> 1) ^^^ 0xEDB88320#32 else c >>> 1

/-- One byte, least significant bit first (R185). -/
def crcByte (c : Word) (b : Byte) : Word :=
  crcBit (crcBit (crcBit (crcBit (crcBit (crcBit (crcBit (crcBit (c ^^^ b.setWidth 32))))))))

/-- The check value of bytes: initial value FFFFFFFFh, the remainder inverted in all 32 bits (R185; R131 for a
profile). -/
def checkValue (bs : List Byte) : Word := ~~~ bs.foldl crcByte 0xFFFFFFFF#32

/-- `addr + len` passes beyond the top of the 64-bit address space (R45, R65, R132, R134, R172, R173). -/
def pastTop (addr : Addr) (len : Nat) : Bool := addr.toNat + len > 2 ^ 64

/-- `n` is a power of two from 8 to 4096 (R4, R150). -/
def validSize (n : Nat) : Bool := [8, 16, 32, 64, 128, 256, 512, 1024, 2048, 4096].contains n

end Sys2Proof.Machine
end

