-- ==== Sys2Proof/Config.lean ====
section
/-! DEFINITION. What one implementation fixes and the spec does not state: constants with no body, so that
nothing can be proved of their values. -/

namespace Sys2Proof

/-- The revision level in bits 16 to 23 of IDENT (R177); the spec names the field and gives it no value
(notes/assumptions/1.md). -/
opaque Config.revisionLevel : Byte

/-- Whether a bring-up time left of so many µs that is no whole number of ms is reported rounded up (true) or down
in bytes 28 to 31 of the QUERY_LINK result (R148, the layout of 11.4); the spec states no rounding
(notes/assumptions/2.md). -/
opaque Config.roundsUp : Nat → Bool

end Sys2Proof
end

