-- ==== Sys2Proof/Syntax.lean ====
section
/-! DEFINITION. The commands of the IB7216: one constructor per row of spec/opcode_table.json. The part has no
instructions; each row is one whole and indivisible event that reaches it from the host, from host memory, from the
link, from one of its own timers or from a pin (spec 95_what_each_step_holds.md). -/

namespace Sys2Proof

/-- The parameters of an OPEN_STREAM request as they stand in the record's fields (R4, R183 "Admin request"); every
field may hold any value, so that the checks of R4 have something to refuse. -/
structure OpenParams where
  /-- P0: 1 OUT or 2 IN -/
  dir : Byte
  /-- P1: 1 SCHEDULED or 2 BEST_EFFORT -/
  cls : Byte
  /-- P2: the buffer count B -/
  bufferCount : Byte
  /-- P3: the packets per cycle -/
  perCycle : Byte
  /-- the work ring base -/
  base : Addr
  /-- bytes 24–25: the packet length L -/
  packetLength : BitVec 16
  /-- bytes 26–27: the work ring size -/
  size : BitVec 16
  /-- byte 28: the bound completion ring -/
  ring : Byte
  deriving DecidableEq, Repr

/-- One command. A result that may be an error response of the memory port is an `Option` (`none` is the error
response) or a `Bool` (`false` is the error response). `slot` counts the transfers of the kind in flight, oldest
first, since reads may return in any order; an end that finds no such transfer belongs to one the part no longer
acts on. -/
inductive Instr where
  -- host register accesses and the reset pin
  | powerOnReset
  | reset
  | start
  | stop
  | notify (value : Word)
  | registerWrite (offset value : Word)
  -- ends of memory transfers
  | controlBlockReadEnd (result : Option (BitVec 1024))
  | adminFetchReturn (slot : Nat) (result : Option (BitVec 256))
  | workRecordFetchReturn (stream : StreamId) (slot : Nat) (result : Option (BitVec 256))
  | sendBufferReadReturn (stream : StreamId) (slot : Nat) (result : Option (List Byte))
  | receiveBufferWriteEnd (stream : StreamId) (ok : Bool)
  | completionWriteEnd (ok : Bool)
  | eventWriteEnd (ok : Bool)
  | interruptMessageWriteEnd (ok : Bool)
  | loadProfileReadEnd (entry : Nat) (result : Option (List Byte))
  | readPeerProfileWritesEnd (entry : Nat) (ok : Bool)
  | queryStreamWritesEnd (entry : Nat) (ok : Bool)
  | queryLinkWritesEnd (entry : Nat) (ok : Bool)
  -- admin requests: the record the oldest admin fetch in flight returns is this request
  | openStream (tag : Tag) (stream : Byte) (params : OpenParams)
  | closeStream (tag : Tag) (stream : Byte)
  | abortStream (tag : Tag) (stream : Byte)
  | flushStream (tag : Tag) (stream : Byte)
  | resumeStream (tag : Tag) (stream : Byte)
  | setWatch (tag : Tag) (stream : Byte) (mode dir measure : Byte) (threshold : Word)
  | queryStream (tag : Tag) (stream : Byte) (addr : Addr)
  | linkUp (tag : Tag) (role : Byte) (period timeout : Word)
  | linkDown (tag : Tag)
  | loadProfile (tag : Tag) (addr : Addr) (length : Word)
  | readPeerProfile (tag : Tag) (addr : Addr) (length : Word)
  | queryLink (tag : Tag) (addr : Addr)
  -- frames arriving on the link, decoded (a DATA frame in its pieces)
  | dataHeaderArrival (header : BitVec 64)
  | dataArrivalStep (bytes : BitVec 512)
  | dataBestEffortEnd (rest : List Byte)
  | dataScheduledEnd (rest : List Byte)
  | accept (stream : StreamId) (bit : Bool)
  | defer (stream : StreamId) (bit : Bool)
  | gone (stream : StreamId)
  | notice (stream : StreamId) (kind : Byte)
  | noticeAck (stream : StreamId) (kind : Byte)
  | cycleStart (number : CycleNum)
  | cycleEcho (number : CycleNum)
  | hello (role : Byte) (period length : BitVec 16) (check : Word)
  | profileChunk (number : Byte) (bytes : List Byte)
  | profileAck (number : Byte)
  | farewell
  | invalidFrame
  -- the transmit lane, the timers and the line signal
  | transmitFrameEnd
  | leaderPeriodExpiry
  | followerDeadline
  | helloTimerExpiry
  | answerTimerExpiry
  | bringUpTimerExpiry
  | lossOfSignal
  | signalPresent
  deriving DecidableEq, Repr

end Sys2Proof
end

