-- ==== Sys2Proof/Machine/State.lean ====
section
/-! DEFINITION. Everything the spec gives the IB7216 to hold, as plain data, and its value after power-on reset. The
blocks are those of 00_scope.md, "Block overview". An absent field of the spec is `none` here, or a constructor
without that field. -/

namespace Sys2Proof.Machine

open Sys2Proof

/-! ### Why a step may stop -/

/-- No command of the table ends in a fault: a memory access the part cannot report through a ring makes the FUNCTION
STATE FAULTED (R182), which is a value of `State.fn`, and the step goes on. So there is no reason to list. -/
inductive Fault
  deriving DecidableEq, Repr

/-- Why a command has no meaning. -/
inductive Refusal where
  /-- The command of this mnemonic has no meaning yet; raised by exec's refused arms alone, of which this model has
  none left. Safe: nothing is claimed of the command. -/
  | notModelled (mnemonic : String)
  deriving DecidableEq, Repr

/-! ### The names of modes, states and codes (11.4, "Codes") -/

/-- A stream's direction: OUT (host to link) or IN (link to host). -/
inductive Direction where
  | outbound
  | inbound
  deriving DecidableEq, Repr

/-- A stream's class. -/
inductive StreamClass where
  | scheduled
  | bestEffort
  deriving DecidableEq, Repr

/-- The states of an open stream (R3); CLOSED is the absence of a context (R1). -/
inductive StreamState where
  | active
  | halting
  | halted
  | flushing
  | closing
  | aborting
  deriving DecidableEq, Repr

/-- The halt causes of R9. -/
inductive HaltCause where
  | badRecord
  | memoryError
  | fetchError
  | linkLost
  | noAnswer
  | peerClosed
  | profileMismatch
  deriving DecidableEq, Repr

/-- Completion statuses (11.4, "Codes"; R60, R75, 10.5). -/
inductive Status where
  | ok
  | badRecord
  | memoryError
  | flushed
  | aborted
  | closed
  | linkLost
  | noAnswer
  | peerClosed
  | profileMismatch
  | badRequest
  | badStream
  | streamBusy
  | wrongState
  | noStore
  | noBandwidth
  | notInProfile
  | badProfile
  | linkNotUp
  | overtaken
  | timeout
  | roleConflict
  | periodMismatch
  | profileFailed
  deriving DecidableEq, Repr

/-- The role a part is given at LINK_UP (R94). -/
inductive Role where
  | leader
  | follower
  deriving DecidableEq, Repr

/-- The four cycle periods (6.1), in µs. -/
inductive Period where
  | us125
  | us250
  | us500
  | us1000
  deriving DecidableEq, Repr

/-- The sync state (6.4); the n of COASTING(n) is the coasting count. -/
inductive Sync where
  | unlocked
  | locked
  | coasting
  | lost
  deriving DecidableEq, Repr

/-- The link state (8.2). -/
inductive LinkState where
  | down
  | calling
  | exchanging
  | up
  deriving DecidableEq, Repr

/-- The DOWN causes (8.2, 8.6, 8.8). -/
inductive DownCause where
  | requested
  | peerDown
  | noSignal
  | syncLost
  | peerSilent
  | timeout
  | roleConflict
  | periodMismatch
  | profileFailed
  deriving DecidableEq, Repr

/-- The function states (11.2). -/
inductive FnState where
  | off
  | starting
  | running
  | stopping
  | faulted
  deriving DecidableEq, Repr

/-- The fault codes of the FUNCTION register (R177); absence is code 0. -/
inductive FaultCode where
  | badControlBlock
  | adminFetch
  | postWrite
  deriving DecidableEq, Repr

/-! ### Completions and rings (chapter 9) -/

/-- What a completion reports on (11.4, completion record, byte 0). -/
inductive CompletionKind where
  | admin
  | send
  | receive
  deriving DecidableEq, Repr

/-- A completion before it is written: the phase is added at the write (R60, R75, R169). -/
structure Completion where
  kind : CompletionKind
  /-- byte 1: the stream, or the request's stream field for a stream request, else 0 -/
  stream : Byte
  status : Status
  eom : Bool
  gap : Bool
  /-- the cycle stamp where CYCLE_VALID is set -/
  stamp : Option CycleNum
  /-- the ring position of the request or record -/
  position : Nat
  tag : Tag
  /-- bytes confirmed, bytes written, or the result -/
  count : Nat
  /-- the request code of an admin completion, else 0 -/
  code : Byte
  deriving DecidableEq, Repr

/-- How far a held completion has come: formed in the event under way, on its ring's waiting list, or its write in
flight (R160, R161). -/
inductive HeldStage where
  | formed
  | waiting
  | writing
  deriving DecidableEq, Repr

/-- The held completion of a stream or an in-flight admin entry (R160). -/
structure Held where
  completion : Completion
  stage : HeldStage
  deriving DecidableEq, Repr

/-- The source of a completion: a stream, or an entry of the in-flight table by its identity. -/
inductive Source where
  | stream (i : StreamId)
  | admin (id : Nat)
  deriving DecidableEq, Repr

/-- One fetch in flight: the position it reads, and whether its record is to be discarded because a NOTIFY has cut it
off (R154, R156). -/
structure Fetch where
  position : Nat
  dropped : Bool
  deriving DecidableEq, Repr

/-- The state the Ring Interface holds of a host-written ring (9.1). -/
structure HostRing where
  base : Addr
  size : Nat
  posted : Nat
  taken : Nat
  fetchPos : Nat
  /-- the fetches in flight, in issue order -/
  fetches : List Fetch
  /-- the records returned and not yet handed on, with their positions -/
  returned : List (Nat × BitVec 256)
  deriving DecidableEq, Repr

/-- The state the Ring Interface holds of a part-written ring (9.1). -/
structure PartRing where
  base : Addr
  size : Nat
  put : Nat
  freed : Nat
  phase : Bool
  armed : Bool
  intAddr : Addr
  intValue : Word
  deriving DecidableEq, Repr

/-- A completion ring with its waiting list, oldest first (9.5). -/
structure CompletionRing where
  ring : PartRing
  waiting : List Source
  deriving DecidableEq, Repr

/-- What a write into a part-written ring, or an interrupt message, is. -/
inductive RingWriteKind where
  | completion (src : Source)
  | event
  | interrupt
  deriving DecidableEq, Repr

/-- One write of the Ring Interface in flight, with the bytes it writes and where. -/
structure RingWrite where
  kind : RingWriteKind
  addr : Addr
  data : List Byte
  deriving DecidableEq, Repr

/-! ### The packet store (chapter 2) -/

/-- The owner of a block: stream, buffer index, and part (`false` first, `true` second) (2.1). -/
structure Owner where
  stream : StreamId
  buffer : Nat
  second : Bool
  deriving DecidableEq, Repr

/-- The answer condition of a SENT packet (7.5). -/
inductive AnswerCondition where
  | awaiting0
  | awaiting1
  | deferred
  | due
  deriving DecidableEq, Repr

/-- The arrival sequence value of an IN packet: the frame's bit or counter (2.2). -/
inductive ArrivalValue where
  | bit (b : Bool)
  | counter (c : Byte)
  deriving DecidableEq, Repr

/-- One packet buffer: its state with the fields that state has (2.2, R76). The byte count is the length of `data`,
which is the content of the buffer's blocks (R29). -/
inductive Buffer where
  | free
  | filling (data : List Byte)
  | committed (data : List Byte) (mark : Bool)
  | sent (data : List Byte) (mark bit : Bool) (answer : AnswerCondition)
  | receiving (data : List Byte)
  | held (data : List Byte) (mark : Bool) (arrival : ArrivalValue) (cycle : CycleNum) (gap : Bool)
  | draining (data : List Byte) (mark : Bool) (arrival : ArrivalValue) (cycle : CycleNum) (gap : Bool)
      (written issued : Nat)
  deriving DecidableEq, Repr

/-! ### Records of a stream (chapters 3 and 4) -/

/-- An entry of the outstanding record list (3.2). -/
structure SendEntry where
  position : Nat
  tag : Tag
  addr : Addr
  length : Nat
  eom : Bool
  quiet : Bool
  requested : Nat
  read : Nat
  confirmed : Nat
  markCarried : Bool
  markConfirmed : Bool
  finishCycle : Option CycleNum
  deriving DecidableEq, Repr

/-- An entry of the receive record list (4.2). -/
structure ReceiveEntry where
  position : Nat
  tag : Tag
  addr : Addr
  capacity : Nat
  quiet : Bool
  issued : Nat
  written : Nat
  markIssued : Bool
  markDelivered : Bool
  firstCycle : Option CycleNum
  gap : Bool
  deriving DecidableEq, Repr

/-- The bad record of a stream (R46, R66), and whether its completion has been formed. -/
structure BadRecord where
  position : Nat
  tag : Tag
  formed : Bool
  deriving DecidableEq, Repr

/-- One send-buffer read: the record it covers, where it reads, its length, and the data once it has returned and
waits for an earlier read (R49, R52). -/
structure SendRead where
  position : Nat
  addr : Addr
  length : Nat
  data : Option (List Byte)
  deriving DecidableEq, Repr

/-- One receive-buffer write in flight; `last` if it carries the last byte of a marked packet (R70, R73). -/
structure ReceiveWrite where
  addr : Addr
  data : List Byte
  last : Bool
  deriving DecidableEq, Repr

/-! ### Streams (chapter 1) -/

/-- The link sequence state, in the form of the stream's class and direction (1.1). -/
inductive SeqState where
  | bestEffortOut (next inFlight : Bool) (unanswered : Nat)
  | bestEffortIn (expected : Bool)
  | scheduledOut (next : Byte)
  | scheduledIn (expected : Byte) (gapPending first : Bool)
  deriving DecidableEq, Repr

/-- Which direction a level watch looks (5.1). -/
inductive WatchDirection where
  | atOrAbove
  | atOrBelow
  deriving DecidableEq, Repr

/-- Which measure a level watch compares (5.1). -/
inductive Measure where
  | wholeStore
  | openPacket
  deriving DecidableEq, Repr

/-- The fields of a watch with mode ON (5.1); mode OFF is the absence of them. -/
structure Watch where
  threshold : Nat
  dir : WatchDirection
  measure : Measure
  condition : Bool
  deriving DecidableEq, Repr

/-- The FLUSH_STREAM or CLOSE_STREAM in progress in a stream (R23). `flushRest` is a flush that has formed the last
completion it calls for and made its discards: it waits only for that completion to be written (R20). -/
inductive Request where
  | flush
  | flushRest
  | close
  deriving DecidableEq, Repr

/-- How far the work of a halt, a flush, a close or an abort has come: waiting for what cannot be cut short; letting
finished heads leave; completing the head record, or every record, with a status; waiting for the last completion to
be written; done (R10, R12, R18 to R24). -/
inductive Stage where
  | idle
  | waiting
  | leaving
  | completeHead (status : Status)
  | completeAll (status : Status)
  | awaitWrite
  | finished
  deriving DecidableEq, Repr

/-- The context of an open stream with what the other blocks hold of it: packet buffers (PS), record lists (OA, ID),
watch (LW) and work ring (RIF). -/
structure Stream where
  state : StreamState
  dir : Direction
  cls : StreamClass
  /-- the packet length L -/
  maxLen : Nat
  perCycle : Nat
  /-- the bound completion ring -/
  bound : Fin 4
  cause : Option HaltCause
  seq : SeqState
  held : Option Held
  profileChecked : Bool
  /-- the B packet buffers, by buffer index -/
  buffers : List Buffer
  /-- the committed queue (OUT) or held queue (IN): buffer indices, oldest first -/
  queue : List Nat
  sends : List SendEntry
  receives : List ReceiveEntry
  bad : Option BadRecord
  /-- the ring position of the failed record, or of a record whose read failed in a halt for another cause (R53) -/
  failed : Option Nat
  reads : List SendRead
  writes : List ReceiveWrite
  /-- a receive-buffer write has failed and the counts have stopped (R79) -/
  writeFailed : Bool
  watch : Option Watch
  ring : HostRing
  request : Option Request
  stage : Stage
  /-- the bytes discarded since the flush or close in flight was accepted (R20, R22, R23) -/
  discarded : Nat
  deriving DecidableEq, Repr

/-- What one internal action of a stream asks of the part beside the change of the stream itself: nothing; the
STREAM_HALTED event of a halt just decided (R9); the completion of the FLUSH_STREAM in flight (R20); the release
(R26). -/
inductive Effect where
  | none
  | halted (cause : HaltCause)
  | flushed
  | released
  deriving DecidableEq, Repr

/-- What a stream's actions read of the rest of the part: the function state is RUNNING; it is RUNNING or STOPPING;
the link is UP; and the engine's cycle number. -/
structure Env where
  running : Bool
  serving : Bool
  up : Bool
  cycle : CycleNum
  deriving DecidableEq, Repr

/-! ### Frames and the link (chapters 7 and 8) -/

/-- A control frame (11.4, "Control frames"). -/
inductive ControlFrame where
  | accept (i : StreamId) (bit : Bool)
  | defer (i : StreamId) (bit : Bool)
  | gone (i : StreamId)
  | notice (i : StreamId) (kind : Byte)
  | noticeAck (i : StreamId) (kind : Byte)
  | cycleStart (number : CycleNum)
  | cycleEcho (number : CycleNum)
  | hello (role : Byte) (period length : BitVec 16) (check : Word)
  | profileChunk (number : Byte) (bytes : List Byte)
  | profileAck (number : Byte)
  | farewell
  deriving DecidableEq, Repr

/-- The header fields of a DATA frame (11.4, "DATA frame header"). -/
structure DataHeader where
  stream : StreamId
  cls : StreamClass
  mark : Bool
  bit : Bool
  counter : Byte
  slot : Byte
  length : Nat
  deriving DecidableEq, Repr

/-- The frame under way on the transmit lane; a DATA frame with the buffer index it is sent from. -/
inductive Lane where
  | control (f : ControlFrame)
  | data (header : DataHeader) (buffer : Nat) (payload : List Byte)
  deriving DecidableEq, Repr

/-- The DATA frame that is arriving: its header, the payload bytes arrived, and the RECEIVING buffer it claimed. -/
structure Reception where
  header : DataHeader
  arrived : List Byte
  claim : Option Nat
  deriving DecidableEq, Repr

/-- An entry of the notice queue (7.3): `closed` is the kind, `waited` the cycles waited, `due` a notice waiting to be
sent. -/
structure Notice where
  stream : StreamId
  closed : Bool
  sends : Nat
  waited : Bool
  due : Bool
  deriving DecidableEq, Repr

/-- The scheduled turn position: a stream number with the frames it has sent in this turn, or "over" (7.3, R115). -/
inductive Turn where
  | at (i : StreamId) (sentCount : Nat)
  | over
  deriving DecidableEq, Repr

/-- What Link Transfer holds (7.3), with the control frames due, oldest first (R112). `fresh` are the frames that
became due in the event under way; it is empty between events. -/
structure LinkTransfer where
  budget : Nat
  turn : Option Turn
  roundRobin : StreamId
  notices : List Notice
  /-- the leader's CYCLE_START for the cycle that has started is not yet sent -/
  markerDue : Bool
  due : List ControlFrame
  fresh : List ControlFrame
  lane : Option Lane
  deriving DecidableEq, Repr

/-- What the Cycle Engine holds (6.1). Times are on the 1 µs timebase. The deadline is the expected marker time plus
the grace, and the reserved sum is a sum over the streams (R108); neither is stored twice. -/
structure CycleEngine where
  role : Option Role
  period : Option Period
  inForce : Period
  cycle : CycleNum
  sync : Sync
  coasting : Nat
  echoMiss : Nat
  echoSeen : Option Bool
  expected : Option Nat
  firstMarker : Bool
  /-- when the leader's period timer next expires -/
  periodEnds : Option Nat
  deriving DecidableEq, Repr

/-- The peer HELLO (8.2). -/
structure PeerHello where
  role : Byte
  period : BitVec 16
  length : BitVec 16
  check : Word
  deriving DecidableEq, Repr

/-- The outgoing exchange (8.2): chunk in progress, its sends, when its answer timer expires, or done. -/
structure Outgoing where
  chunk : Nat
  sends : Nat
  timer : Option Nat
  done : Bool
  deriving DecidableEq, Repr

/-- The incoming exchange (8.2): next chunk expected, bytes received, done or not done. -/
structure Incoming where
  next : Nat
  bytes : List Byte
  done : Bool
  deriving DecidableEq, Repr

/-- What the Bring-up and Profile Unit holds (8.1, 8.2). A profile is its bytes; its length and check value are
computed from them (R131). -/
structure BringUp where
  link : LinkState
  lastDown : Option DownCause
  signal : Bool
  pendingLinkUp : Option Nat
  bringUpEnds : Option Nat
  helloEnds : Option Nat
  peerHello : Option PeerHello
  outgoing : Option Outgoing
  incoming : Option Incoming
  localProfile : List Byte
  peerProfile : Option (List Byte)
  deriving DecidableEq, Repr

/-! ### Requests and events (chapter 10) -/

/-- The memory transfer an in-flight request waits for. -/
inductive Work where
  | none
  | profileRead (addr : Addr) (length : Nat)
  | peerWrites (addr : Addr) (data : List Byte) (length : Nat)
  | streamWrites (addr : Addr) (data : List Byte)
  | linkWrites (addr : Addr) (data : List Byte)
  deriving DecidableEq, Repr

/-- An entry of the admin in-flight table (10.2). `id` is the model's name for the entry: how many requests have been
taken before it since the rings were configured. -/
structure Entry where
  id : Nat
  position : Nat
  code : Byte
  /-- the record's stream number field -/
  field : Byte
  /-- the stream of a stream request admitted under R170 -/
  stream : Option StreamId
  tag : Tag
  claim : Bool
  work : Work
  held : Option Held
  deriving DecidableEq, Repr

/-- The detail of an event; its form is the event's kind (10.6, 11.4 "Event record"). -/
inductive Detail where
  | watch (condition : Bool)
  | streamHalted (cause : HaltCause)
  | scheduleMiss (overrun : Bool)
  | linkState (state : LinkState) (cause : Option DownCause)
  | cycleSlip (old new : CycleNum)
  | badNotify (ring : Nat) (index : BitVec 16)
  deriving DecidableEq, Repr

/-- A pending event (R174); no source stream means the device. -/
structure Event where
  source : Option StreamId
  detail : Detail
  count : Nat
  deriving DecidableEq, Repr

/-! ### The whole part -/

/-- What the blocks of the data path and the host side hold: Stream Table with the per-stream parts of PS, OA, ID and
LW; the block ownership map; the rings and the Ring Interface's writes in flight; the in-flight table; the pending
event list; Link Transfer; and the frame that is arriving. -/
structure Body where
  streams : Vector (Option Stream) 16
  blocks : Vector (Option Owner) 96
  admin : Option HostRing
  completion : Vector (Option CompletionRing) 4
  event : Option PartRing
  ringWrites : List RingWrite
  table : List Entry
  nextId : Nat
  events : List Event
  lt : LinkTransfer
  rx : Option Reception
  deriving DecidableEq, Repr

/-- The state of the part, with the queue of the commands that wait. -/
structure State where
  /-- the function state (11.2) -/
  fn : FnState
  /-- the fault code, absent outside FAULTED (R177) -/
  fault : Option FaultCode
  /-- a STOP is held (R179) -/
  heldStop : Bool
  cbLo : Word
  cbHi : Word
  /-- the internal 1 µs timebase (00_scope.md, "Time") -/
  now : Nat
  /-- the level of the line signal detect input LSIG -/
  lsig : Bool
  bp : BringUp
  ce : CycleEngine
  body : Body
  /-- the commands that wait, first in first out; the model's own -/
  pending : List Instr
  deriving DecidableEq, Repr

/-- The empty profile: profile length 8, no entries, no name (R131). -/
def emptyProfile : List Byte := [8, 0, 0, 0, 0, 0, 0, 0]

/-- Link Transfer after a reset (R113). -/
def LinkTransfer.reset : LinkTransfer :=
  { budget := 0, turn := none, roundRobin := 15, notices := [], markerDue := false, due := [], fresh := [],
    lane := none }

/-- The Cycle Engine after a reset (R94). -/
def CycleEngine.reset : CycleEngine :=
  { role := none, period := none, inForce := .us125, cycle := 0, sync := .unlocked, coasting := 0, echoMiss := 0,
    echoSeen := none, expected := none, firstMarker := false, periodEnds := none }

/-- The Bring-up and Profile Unit after a reset, with the signal as the input stands (R131, R133, R135). -/
def BringUp.reset (signal : Bool) : BringUp :=
  { link := .down, lastDown := none, signal := signal, pendingLinkUp := none, bringUpEnds := none, helloEnds := none,
    peerHello := none, outgoing := none, incoming := none, localProfile := emptyProfile, peerProfile := none }

/-- The blocks of the data path and the host side after a reset (R1, R27, R48, R68, R84, R149, R168, R175). -/
def Body.reset : Body :=
  { streams := Vector.replicate 16 none, blocks := Vector.replicate 96 none, admin := none,
    completion := Vector.replicate 4 none, event := none, ringWrites := [], table := [], nextId := 0, events := [],
    lt := LinkTransfer.reset, rx := none }

/-- The part right after power-on reset (R178). The level of the LSIG input is not the part's to reset: ABSENT here
(notes/assumptions/3.md). -/
def State.reset : State :=
  { fn := .off, fault := none, heldStop := false, cbLo := 0, cbHi := 0, now := 0, lsig := false,
    bp := BringUp.reset false, ce := CycleEngine.reset, body := Body.reset, pending := [] }

end Sys2Proof.Machine
end

