-- ==== Sys2Proof/Machine/Operands.lean ====
section
/-! DEFINITION. How the records and frames that reach the part are read: the layouts of 11.4, field by field. -/

namespace Sys2Proof.Machine

open Sys2Proof

/-! ### Values of coded fields -/

/-- 1 OUT, 2 IN (11.4, "Admin request"). -/
def Direction.ofCode (c : Byte) : Option Direction :=
  if c = 1 then some .outbound else if c = 2 then some .inbound else none

/-- 1 SCHEDULED, 2 BEST_EFFORT. -/
def StreamClass.ofCode (c : Byte) : Option StreamClass :=
  if c = 1 then some .scheduled else if c = 2 then some .bestEffort else none

/-- 1 LEADER, 2 FOLLOWER. -/
def Role.ofCode (c : Byte) : Option Role :=
  if c = 1 then some .leader else if c = 2 then some .follower else none

/-- A period given in µs. -/
def Period.ofUs (n : Nat) : Option Period :=
  if n = 125 then some .us125 else if n = 250 then some .us250 else if n = 500 then some .us500
  else if n = 1000 then some .us1000 else none

/-- 1 AT_OR_ABOVE, 2 AT_OR_BELOW. -/
def WatchDirection.ofCode (c : Byte) : Option WatchDirection :=
  if c = 1 then some .atOrAbove else if c = 2 then some .atOrBelow else none

/-- 1 WHOLE_STORE, 2 OPEN_PACKET. -/
def Measure.ofCode (c : Byte) : Option Measure :=
  if c = 1 then some .wholeStore else if c = 2 then some .openPacket else none

/-- A stream number field that may lie above 15. -/
def streamOf (c : Byte) : Option StreamId := if h : c.toNat < 16 then some ⟨c.toNat, h⟩ else none

/-! ### Work records -/

/-- A send or receive record, 32 bytes (11.4, "Send record and receive record"). -/
structure WorkRecord where
  addr : Addr
  length : Nat
  kind : Byte
  flagBits : Byte
  tag : Tag
  /-- bytes 14–15 and 24–31 are zero -/
  reservedZero : Bool
  deriving DecidableEq, Repr

/-- The fields of a work record's bytes. -/
def WorkRecord.read (r : BitVec 256) : WorkRecord :=
  { addr := addrAt r 0, length := fieldAt r 8 4, kind := byteAt r 12, flagBits := byteAt r 13, tag := addrAt r 16,
    reservedZero := fieldAt r 14 2 == 0 && fieldAt r 24 8 == 0 }

/-- flag bit 0 -/
def WorkRecord.eom (r : WorkRecord) : Bool := r.flagBits.getLsbD 0

/-- flag bit 1 -/
def WorkRecord.quiet (r : WorkRecord) : Bool := r.flagBits.getLsbD 1

/-- The checks of a send record (R45). -/
def WorkRecord.validSend (r : WorkRecord) : Bool :=
  r.kind == 1 && decide (r.length ≤ 1048576) && (r.flagBits &&& 0xFC#8) == 0 &&
    !(decide (1 ≤ r.length) && pastTop r.addr r.length) && r.reservedZero

/-- The checks of a receive record (R65). -/
def WorkRecord.validReceive (r : WorkRecord) : Bool :=
  r.kind == 2 && decide (1 ≤ r.length) && decide (r.length ≤ 1048576) && (r.flagBits &&& 0xFD#8) == 0 &&
    !pastTop r.addr r.length && r.reservedZero

/-! ### Admin requests -/

/-- An admin request, 32 bytes (11.4, "Admin request"). -/
structure AdminRecord where
  code : Byte
  field : Byte
  zero : BitVec 16
  p0 : Byte
  p1 : Byte
  p2 : Byte
  p3 : Byte
  tag : Tag
  addr : Addr
  w1 : Word
  w2 : Word
  deriving DecidableEq, Repr

/-- The fields of an admin request's bytes. -/
def AdminRecord.read (r : BitVec 256) : AdminRecord :=
  { code := byteAt r 0, field := byteAt r 1, zero := r.extractLsb' 16 16, p0 := byteAt r 4, p1 := byteAt r 5,
    p2 := byteAt r 6, p3 := byteAt r 7, tag := addrAt r 8, addr := addrAt r 16, w1 := wordAt r 24,
    w2 := wordAt r 28 }

/-- The bytes of an admin request. -/
def AdminRecord.bits (r : AdminRecord) : BitVec 256 :=
  r.w2 ++ r.w1 ++ r.addr ++ r.tag ++ r.p3 ++ r.p2 ++ r.p1 ++ r.p0 ++ r.zero ++ r.field ++ r.code

/-- A request with no parameter; the others are this one with their fields set. -/
def AdminRecord.plain (code field : Byte) (tag : Tag) : AdminRecord :=
  { code := code, field := field, zero := 0, p0 := 0, p1 := 0, p2 := 0, p3 := 0, tag := tag, addr := 0, w1 := 0,
    w2 := 0 }

/-- A stream request: codes 1 to 7. -/
def isStreamCode (c : Byte) : Bool := decide (1 ≤ c.toNat) && decide (c.toNat ≤ 7)

/-- A request that takes the stream claim: codes 1 to 5 (R170). -/
def isClaimCode (c : Byte) : Bool := decide (1 ≤ c.toNat) && decide (c.toNat ≤ 5)

/-- A link request: codes 8 and 9 (R171). -/
def isLinkCode (c : Byte) : Bool := c == 8 || c == 9

/-- Every field the request does not use is zero (R168, R183). The stream number field is not examined where the
request concerns no stream. -/
def AdminRecord.reservedZero (r : AdminRecord) : Bool :=
  let ps := r.p0 == 0 && r.p1 == 0 && r.p2 == 0 && r.p3 == 0
  r.zero == 0 &&
    (if r.code == 1 then (r.w2 &&& 0xFFFFFF00#32) == 0
     else if r.code == 6 then r.p3 == 0 && r.addr == 0 && r.w2 == 0
     else if r.code == 7 || r.code == 12 then ps && r.w1 == 0 && r.w2 == 0
     else if r.code == 8 then r.p1 == 0 && r.p2 == 0 && r.p3 == 0 && r.addr == 0
     else if r.code == 10 || r.code == 11 then ps && r.w2 == 0
     else ps && r.addr == 0 && r.w1 == 0 && r.w2 == 0)

/-- The request code is one of the twelve and no reserved field is set (R168). -/
def AdminRecord.wellFormed (r : AdminRecord) : Bool :=
  decide (1 ≤ r.code.toNat) && decide (r.code.toNat ≤ 12) && r.reservedZero

/-- The parameters of an OPEN_STREAM record. -/
def AdminRecord.openParams (r : AdminRecord) : OpenParams :=
  { dir := r.p0, cls := r.p1, bufferCount := r.p2, perCycle := r.p3, base := r.addr,
    packetLength := r.w1.extractLsb' 0 16, size := r.w1.extractLsb' 16 16, ring := r.w2.extractLsb' 0 8 }

/-- The OPEN_STREAM record with these parameters. -/
def AdminRecord.ofOpen (field : Byte) (tag : Tag) (p : OpenParams) : AdminRecord :=
  { AdminRecord.plain 1 field tag with
    p0 := p.dir, p1 := p.cls, p2 := p.bufferCount, p3 := p.perCycle, addr := p.base, w1 := p.size ++ p.packetLength,
    w2 := p.ring.setWidth 32 }

/-! ### The control block -/

/-- The control block's fields (9.1; 11.4, "Control block"). -/
structure ControlBlock where
  adminBase : Addr
  eventBase : Addr
  bases : List Addr
  intAddrs : List Addr
  eventIntAddr : Addr
  intValues : List Word
  eventIntValue : Word
  adminSize : Nat
  sizes : List Nat
  eventSize : Nat
  ringCount : Nat
  deriving DecidableEq, Repr

/-- The fields of the control block's 128 bytes. -/
def ControlBlock.read (w : BitVec 1024) : ControlBlock :=
  { adminBase := addrAt w 0, eventBase := addrAt w 8,
    bases := [addrAt w 16, addrAt w 24, addrAt w 32, addrAt w 40],
    intAddrs := [addrAt w 48, addrAt w 56, addrAt w 64, addrAt w 72], eventIntAddr := addrAt w 80,
    intValues := [wordAt w 88, wordAt w 92, wordAt w 96, wordAt w 100], eventIntValue := wordAt w 104,
    adminSize := fieldAt w 108 2, sizes := [fieldAt w 110 2, fieldAt w 112 2, fieldAt w 114 2, fieldAt w 116 2],
    eventSize := fieldAt w 118 2, ringCount := (byteAt w 120).toNat }

/-- A ring base is a multiple of 64 (R150). -/
def aligned64 (a : Addr) : Bool := a.toNat % 64 == 0

/-- The control block is valid as far as its bytes go (R150): the completion ring count is 1 to 4, and the size and
base of every ring it configures are in range. Reserved bytes are not examined (R183). -/
def ControlBlock.valid (c : ControlBlock) : Bool :=
  decide (1 ≤ c.ringCount) && decide (c.ringCount ≤ 4) && validSize c.adminSize && validSize c.eventSize &&
    (c.sizes.take c.ringCount).all validSize && aligned64 c.adminBase && aligned64 c.eventBase &&
    (c.bases.take c.ringCount).all aligned64

/-! ### Frames that arrive -/

/-- The header of a DATA frame as R184 reads it: the class from bit 4 of byte 1, unused fields not examined. -/
def DataHeader.read (h : BitVec 64) : DataHeader :=
  { stream := ⟨(h.extractLsb' 8 4).toNat, (h.extractLsb' 8 4).isLt⟩,
    cls := if h.getLsbD 12 then .bestEffort else .scheduled, mark := h.getLsbD 13, bit := h.getLsbD 14,
    counter := byteAt h 2, slot := byteAt h 3, length := fieldAt h 4 2 }

/-! ### Profiles -/

/-- One entry of a profile (8.1; 11.4, "Profile"). -/
structure ProfileEntry where
  stream : Nat
  dir : Byte
  cls : Byte
  maxPerCycle : Nat
  maxLen : Nat
  reservedZero : Bool
  deriving DecidableEq, Repr

/-- The bytes of a profile from `i` on, as a number of `len` bytes. -/
def profileField (p : List Byte) (i len : Nat) : Nat := leVal (fit len (p.drop i))

/-- The name length rounded up to a multiple of 4. -/
def paddedName (n : Nat) : Nat := (n + 3) / 4 * 4

/-- header bytes 0–1 -/
def profileLength (p : List Byte) : Nat := profileField p 0 2

/-- header byte 2 -/
def profileEntryCount (p : List Byte) : Nat := profileField p 2 1

/-- header byte 3 -/
def profileNameLength (p : List Byte) : Nat := profileField p 3 1

/-- The 12 bytes of entry `k`. -/
def profileEntryAt (p : List Byte) (k : Nat) : ProfileEntry :=
  let e := p.drop (8 + paddedName (profileNameLength p) + 12 * k)
  { stream := profileField e 0 1, dir := BitVec.ofNat 8 (profileField e 1 1), cls := BitVec.ofNat 8 (profileField e 2 1),
    maxPerCycle := profileField e 3 1, maxLen := profileField e 4 2,
    reservedZero := profileField e 6 6 == 0 }

/-- The entries of a profile. -/
def profileEntries (p : List Byte) : List ProfileEntry := (List.range (profileEntryCount p)).map (profileEntryAt p)

/-- A profile entry's fields are in range (8.1, check 4 of R132). -/
def ProfileEntry.inRange (e : ProfileEntry) : Bool :=
  decide (e.stream ≤ 15) && (e.dir == 1 || e.dir == 2) && decide (4 ≤ e.maxLen) && decide (e.maxLen ≤ 1024) &&
    e.maxLen % 4 == 0 &&
    ((e.cls == 1 && decide (1 ≤ e.maxPerCycle) && decide (e.maxPerCycle ≤ 3)) || (e.cls == 2 && e.maxPerCycle == 0))

/-- Checks 2 to 5 of R132 for bytes that were announced with length `len`. -/
def validProfile (len : Nat) (p : List Byte) : Bool :=
  let n := profileNameLength p
  profileLength p == len && decide (profileEntryCount p ≤ 16) && decide (n ≤ 64) &&
    8 + paddedName n + 12 * profileEntryCount p == profileLength p &&
    (profileEntries p).all ProfileEntry.inRange && decide ((profileEntries p).map ProfileEntry.stream).Nodup &&
    profileField p 4 4 == 0 && ((p.drop (8 + n)).take (paddedName n - n)).all (· == 0) &&
    (profileEntries p).all ProfileEntry.reservedZero

end Sys2Proof.Machine
end

