-- ==== Sys2Proof/Machine/Store.lean ====
section
/-! DEFINITION. The Packet Store (chapter 2): the buffers of a stream, claims, commits, discards and measures, and the
block map. -/

namespace Sys2Proof.Machine

open Sys2Proof

/-! ### One buffer -/

/-- The bytes a buffer holds. -/
def Buffer.data : Buffer → List Byte
  | .free => []
  | .filling d => d
  | .committed d _ => d
  | .sent d _ _ _ => d
  | .receiving d => d
  | .held d _ _ _ _ => d
  | .draining d _ _ _ _ _ _ => d

/-- The byte count (2.2). -/
def Buffer.count (b : Buffer) : Nat := b.data.length

/-- The end-of-message mark (2.2). -/
def Buffer.mark : Buffer → Bool
  | .committed _ m => m
  | .sent _ m _ _ => m
  | .held _ m _ _ _ => m
  | .draining _ m _ _ _ _ _ => m
  | _ => false

def Buffer.isFree : Buffer → Bool
  | .free => true
  | _ => false

def Buffer.isFilling : Buffer → Bool
  | .filling _ => true
  | _ => false

def Buffer.isCommitted : Buffer → Bool
  | .committed _ _ => true
  | _ => false

def Buffer.isSent : Buffer → Bool
  | .sent _ _ _ _ => true
  | _ => false

def Buffer.isReceiving : Buffer → Bool
  | .receiving _ => true
  | _ => false

def Buffer.isHeld : Buffer → Bool
  | .held _ _ _ _ _ => true
  | _ => false

def Buffer.isDraining : Buffer → Bool
  | .draining _ _ _ _ _ _ _ => true
  | _ => false

/-- What a buffer counts towards the whole-store measure (2.5): its byte count, for a DRAINING buffer less the bytes
written. -/
def Buffer.occupancy : Buffer → Nat
  | .draining d _ _ _ _ w _ => d.length - w
  | b => b.count

/-! ### The buffers of a stream -/

/-- The whole-store measure (2.5). -/
def Stream.wholeStore (st : Stream) : Nat := (st.buffers.map Buffer.occupancy).sum

/-- The open-packet measure (2.5). -/
def Stream.openPacket (st : Stream) : Nat := ((st.buffers.filter Buffer.isFilling).map Buffer.count).sum

/-- The FREE buffer with the lowest index (R32). -/
def Stream.freeIndex (st : Stream) : Option Nat := st.buffers.findIdx? Buffer.isFree

/-- The FILLING buffer: its index and bytes. -/
def Stream.filling? (st : Stream) : Option (Nat × List Byte) :=
  match st.buffers.findIdx? Buffer.isFilling with
  | some k => some (k, (st.buffers.getD k .free).data)
  | none => none

/-- The index of the SENT buffer. -/
def Stream.sentIndex (st : Stream) : Option Nat := st.buffers.findIdx? Buffer.isSent

/-- The index of the DRAINING buffer. -/
def Stream.drainingIndex (st : Stream) : Option Nat := st.buffers.findIdx? Buffer.isDraining

/-- The buffer of an index; FREE where there is none. -/
def Stream.buffer (st : Stream) (k : Nat) : Buffer := st.buffers.getD k .free

/-- Give buffer `k` this record. -/
def Stream.setBuffer (st : Stream) (k : Nat) (b : Buffer) : Stream := { st with buffers := st.buffers.set k b }

/-- Buffer `k` becomes FREE and leaves its queue; the order of the others stays (R31). -/
def Stream.freeBuffer (st : Stream) (k : Nat) : Stream :=
  { st with buffers := st.buffers.set k .free, queue := st.queue.filter (· != k) }

/-- Buffer `k` becomes COMMITTED with these bytes and mark, at the tail of the committed queue (R34). -/
def Stream.commitBuffer (st : Stream) (k : Nat) (data : List Byte) (mark : Bool) : Stream :=
  { st with buffers := st.buffers.set k (.committed data mark), queue := st.queue ++ [k] }

/-- Every buffer that `p` picks becomes FREE in one event (R31, R37, R41). The discarded bytes join the count of the
flush or close in flight. -/
def Stream.discard (p : Buffer → Bool) (st : Stream) : Stream :=
  { st with
    buffers := st.buffers.map fun b => if p b then .free else b
    queue := st.queue.filter fun k => !p (st.buffer k)
    discarded := st.discarded + ((st.buffers.filter p).map Buffer.occupancy).sum }

/-- A stream with these parameters needs this many blocks (R8). -/
def blocksNeeded (maxLen bufferCount : Nat) : Nat := if maxLen ≤ 512 then bufferCount else 2 * bufferCount

/-! ### The block map (2.1) -/

/-- The free count (2.1). -/
def freeCount (blocks : Vector (Option Owner) 96) : Nat := blocks.toList.countP Option.isNone

/-- The free blocks in increasing block number. -/
def freeBlocks (blocks : Vector (Option Owner) 96) : List (Fin 96) :=
  (List.finRange 96).filter fun k => blocks[k].isNone

/-- The owner of the `n`-th block taken for stream `i` (R28). -/
def ownerOf (i : StreamId) (maxLen n : Nat) : Owner :=
  if maxLen ≤ 512 then { stream := i, buffer := n, second := false }
  else { stream := i, buffer := n / 2, second := n % 2 == 1 }

/-- Give the listed blocks to stream `i`, from the `n`-th on. -/
def assignBlocks (i : StreamId) (maxLen : Nat) :
    Nat → List (Fin 96) → Vector (Option Owner) 96 → Vector (Option Owner) 96
  | _, [], blocks => blocks
  | n, k :: ks, blocks => assignBlocks i maxLen (n + 1) ks (blocks.set k (some (ownerOf i maxLen n)))

/-- Allocate the blocks of a stream, lowest-numbered free blocks first (R8, R28). -/
def allocate (i : StreamId) (maxLen bufferCount : Nat) (blocks : Vector (Option Owner) 96) :
    Vector (Option Owner) 96 :=
  assignBlocks i maxLen 0 ((freeBlocks blocks).take (blocksNeeded maxLen bufferCount)) blocks

/-- The block is owned by stream `i`. -/
def ownedBy (i : StreamId) (o : Option Owner) : Bool :=
  match o with
  | some w => w.stream == i
  | none => false

/-- Every block of stream `i` becomes free in one event (R30). -/
def releaseBlocks (i : StreamId) (blocks : Vector (Option Owner) 96) : Vector (Option Owner) 96 :=
  blocks.map fun o => if ownedBy i o then none else o

/-- The bytes of the packet of a buffer that lie in one of its parts (R29): bytes 0 to 511 in the first, the rest in
the second. -/
def Stream.partContents (st : Stream) (w : Owner) : List Byte :=
  if w.second then (st.buffer w.buffer).data.drop 512 else (st.buffer w.buffer).data.take 512

end Sys2Proof.Machine
end

