-- ==== Sys2Proof/Machine/Flags.lean ====
section
/-! DEFINITION. The code numbers of 11.4 ("Codes") and the layouts of the records the part writes. -/

namespace Sys2Proof.Machine

open Sys2Proof

def Direction.code : Direction → Nat
  | .outbound => 1
  | .inbound => 2

def StreamClass.code : StreamClass → Nat
  | .scheduled => 1
  | .bestEffort => 2

def StreamState.code : StreamState → Nat
  | .active => 1
  | .halting => 2
  | .halted => 3
  | .flushing => 4
  | .closing => 5
  | .aborting => 6

def Status.code : Status → Nat
  | .ok => 0
  | .badRecord => 1
  | .memoryError => 2
  | .flushed => 3
  | .aborted => 4
  | .closed => 5
  | .linkLost => 6
  | .noAnswer => 7
  | .peerClosed => 8
  | .profileMismatch => 10
  | .badRequest => 16
  | .badStream => 17
  | .streamBusy => 18
  | .wrongState => 19
  | .noStore => 20
  | .noBandwidth => 21
  | .notInProfile => 22
  | .badProfile => 23
  | .linkNotUp => 24
  | .overtaken => 25
  | .timeout => 26
  | .roleConflict => 27
  | .periodMismatch => 28
  | .profileFailed => 29

def HaltCause.code : HaltCause → Nat
  | .badRecord => 1
  | .memoryError => 2
  | .linkLost => 6
  | .noAnswer => 7
  | .peerClosed => 8
  | .fetchError => 9
  | .profileMismatch => 10

def LinkState.code : LinkState → Nat
  | .down => 0
  | .calling => 1
  | .exchanging => 2
  | .up => 3

def DownCause.code : DownCause → Nat
  | .requested => 1
  | .peerDown => 2
  | .noSignal => 3
  | .syncLost => 4
  | .peerSilent => 5
  | .timeout => 6
  | .roleConflict => 7
  | .periodMismatch => 8
  | .profileFailed => 9

def Role.code : Role → Nat
  | .leader => 1
  | .follower => 2

/-- 6.1, in µs -/
def Period.us : Period → Nat
  | .us125 => 125
  | .us250 => 250
  | .us500 => 500
  | .us1000 => 1000

/-- 24 bytes for each µs of the period (R93). -/
def Period.capacity (p : Period) : Nat := 24 * p.us

/-- 80 % of the capacity (R93). -/
def Period.reservable (p : Period) : Nat := p.capacity * 4 / 5

/-- 1/16 of the period, rounded down to the 1 µs timebase (R93). -/
def Period.grace (p : Period) : Nat := p.us / 16

/-- QUERY_LINK result, byte 3 -/
def Sync.code : Sync → Nat
  | .unlocked => 0
  | .locked => 1
  | .coasting => 2
  | .lost => 3

def FnState.code : FnState → Nat
  | .off => 0
  | .starting => 1
  | .running => 2
  | .stopping => 3
  | .faulted => 4

/-- FUNCTION register, bits 8 to 11 (R177) -/
def FaultCode.code : FaultCode → Nat
  | .badControlBlock => 1
  | .adminFetch => 2
  | .postWrite => 3

/-- QUERY_STREAM result, byte 44 bits 4–6 -/
def AnswerCondition.code : AnswerCondition → Nat
  | .awaiting0 => 1
  | .awaiting1 => 2
  | .deferred => 3
  | .due => 4

/-- QUERY_STREAM result, buffer byte 0 bits 0–2 -/
def Buffer.stateCode : Buffer → Nat
  | .free => 0
  | .filling _ => 1
  | .committed _ _ => 2
  | .sent _ _ _ _ => 3
  | .receiving _ => 4
  | .held _ _ _ _ _ => 5
  | .draining _ _ _ _ _ _ _ => 6

def CompletionKind.code : CompletionKind → Nat
  | .admin => 1
  | .send => 2
  | .receive => 3

/-- The 32 bytes of a completion record with the ring's phase (11.4, "Completion record"). -/
def Completion.bytes (c : Completion) (phase : Bool) : List Byte :=
  [BitVec.ofNat 8 c.kind.code, c.stream, BitVec.ofNat 8 c.status.code,
    BitVec.ofNat 8 (flags [c.eom, c.gap, c.stamp.isSome, false, false, false, false, phase])] ++
    le 2 c.position ++ bytesOf 2 (c.stamp.getD 0) ++ bytesOf 8 c.tag ++ le 4 c.count ++ [c.code] ++ le 11 0

/-- The kind of an event (10.6), by its code in the event record. -/
def Detail.kind : Detail → Nat
  | .watch _ => 1
  | .streamHalted _ => 2
  | .scheduleMiss _ => 3
  | .linkState _ _ => 4
  | .cycleSlip _ _ => 5
  | .badNotify _ _ => 6

/-- The 8 detail bytes, placed by kind (11.4, "Event record"). -/
def Detail.bytes : Detail → List Byte
  | .watch on => le 8 on.toNat
  | .streamHalted cause => le 8 cause.code
  | .scheduleMiss overrun => le 8 (if overrun then 2 else 1)
  | .linkState state cause => le 1 state.code ++ le 7 ((cause.map DownCause.code).getD 0)
  | .cycleSlip old new => bytesOf 2 old ++ bytesOf 6 new
  | .badNotify ring index => le 2 ring ++ bytesOf 6 index

/-- The 16 bytes of an event record with the ring's phase (11.4, "Event record"). -/
def Event.bytes (e : Event) (phase : Bool) : List Byte :=
  [BitVec.ofNat 8 e.detail.kind,
    match e.source with
    | some i => BitVec.ofNat 8 i.val
    | none => 0xFF#8,
    BitVec.ofNat 8 e.count, BitVec.ofNat 8 (flags [false, false, false, false, false, false, false, phase])] ++
    e.detail.bytes ++ le 4 0

/-- A read of the register window (R177). A read is answered in every function state and changes nothing, so it is no
command of the table. -/
def State.readRegister (s : State) (offset : Word) : Word :=
  if offset = 0x00 then (0x49#8 ++ Config.revisionLevel ++ 0x1C30#16)
  else if offset = 0x04 then s.cbLo
  else if offset = 0x08 then s.cbHi
  else if offset = 0x0C then
    BitVec.ofNat 32 (s.fn.code + 8 * s.heldStop.toNat + 256 * (s.fault.map FaultCode.code).getD 0)
  else 0

end Sys2Proof.Machine
end

