-- ==== Sys2Proof/Machine/Frames.lean ====
section
/-! DEFINITION. The bytes of the frames the part sends (11.4; R184, R185). -/

namespace Sys2Proof.Machine

open Sys2Proof

/-- The control frame with its check value after it (R110, R185). -/
def sealFrame (bs : List Byte) : List Byte := bs ++ bytesOf 4 (checkValue bs)

/-- Byte 1 of a frame that names a stream and may carry a sequence bit. -/
def streamByte (i : StreamId) (bit : Bool) : Byte := BitVec.ofNat 8 (i.val + 64 * bit.toNat)

/-- The bytes of a control frame before the check value (11.4, "Control frames"). -/
def ControlFrame.body : ControlFrame → List Byte
  | .accept i b => [2, streamByte i b, 0, 0]
  | .defer i b => [3, streamByte i b, 0, 0]
  | .gone i => [4, streamByte i false, 0, 0]
  | .notice i k => [5, streamByte i false, k, 0]
  | .noticeAck i k => [6, streamByte i false, k, 0]
  | .cycleStart n => [7, 0] ++ bytesOf 2 n
  | .cycleEcho n => [8, 0] ++ bytesOf 2 n
  | .hello role period length check => [9, role] ++ bytesOf 2 period ++ bytesOf 2 length ++ [0, 0] ++ bytesOf 4 check
  | .profileChunk n bs => [10, n, 0, 0] ++ le 2 bs.length ++ [0, 0] ++ bs
  | .profileAck n => [11, n, 0, 0]
  | .farewell => [12, 0, 0, 0]

/-- The 8 header bytes of a DATA frame (R184): fields that the class does not use are 0. -/
def DataHeader.bytes (h : DataHeader) : List Byte :=
  let best := h.cls == .bestEffort
  [1, BitVec.ofNat 8 (h.stream.val + 16 * best.toNat + 32 * h.mark.toNat + 64 * (best && h.bit).toNat),
    if best then 0 else h.counter, if best then 0 else h.slot] ++ le 2 h.length ++ [0, 0]

/-- The bytes the frame under way puts on the lane, check value included. -/
def Lane.bytes : Lane → List Byte
  | .control f => sealFrame f.body
  | .data h _ payload => sealFrame (h.bytes ++ payload)

/-- The stream a control frame names, if it names one (R112). -/
def ControlFrame.stream : ControlFrame → Option StreamId
  | .accept i _ => some i
  | .defer i _ => some i
  | .gone i => some i
  | .notice i _ => some i
  | .noticeAck i _ => some i
  | _ => none

def ControlFrame.isNoticeOf (i : StreamId) : ControlFrame → Bool
  | .notice j _ => j == i
  | _ => false

def ControlFrame.isHello : ControlFrame → Bool
  | .hello _ _ _ _ => true
  | _ => false

def ControlFrame.isChunk : ControlFrame → Bool
  | .profileChunk _ _ => true
  | _ => false

def ControlFrame.isFarewell : ControlFrame → Bool
  | .farewell => true
  | _ => false

end Sys2Proof.Machine
end

