-- ==== Sys2Proof/Machine/Assembler.lean ====
section
/-! DEFINITION. The Outbound Assembler (chapter 3) on one stream: joining, reading, placing, committing, crediting and
leaving. -/

namespace Sys2Proof.Machine

open Sys2Proof

/-- Every byte has been requested and a mark has been carried (3.2). -/
def SendEntry.assembled (e : SendEntry) : Bool := e.requested == e.length && (!e.eom || e.markCarried)

/-- Every byte is confirmed and a mark is confirmed (3.2). -/
def SendEntry.finished (e : SendEntry) : Bool := e.confirmed == e.length && (!e.eom || e.markConfirmed)

/-- A completion of stream `i` for a send record (R60): status OK carries the finish cycle, any other no stamp. -/
def sendCompletion (i : StreamId) (e : SendEntry) (status : Status) : Completion :=
  { kind := .send, stream := BitVec.ofNat 8 i.val, status := status, eom := false, gap := false,
    stamp := if status = .ok then e.finishCycle else none, position := e.position, tag := e.tag,
    count := e.confirmed, code := 0 }

/-- A completion for the bad record of stream `i` (R46, R66). -/
def badCompletion (i : StreamId) (dir : Direction) (b : BadRecord) (status : Status) : Completion :=
  { kind := match dir with
      | .outbound => .send
      | .inbound => .receive
    stream := BitVec.ofNat 8 i.val, status := status, eom := false, gap := false, stamp := none,
    position := b.position, tag := b.tag, count := 0, code := 0 }

/-- The stream holds this completion, formed in the event under way (R160). -/
def Stream.hold (st : Stream) (c : Completion) : Stream := { st with held := some { completion := c, stage := .formed } }

/-- A send record that passes its checks joins the tail of the outstanding list (R47); one of length 0 without the
flag is finished at once, in the cycle in force if the link is UP. -/
def Stream.joinSend (env : Env) (position : Nat) (r : WorkRecord) (st : Stream) : Stream :=
  { st with
    sends := st.sends ++ [
      { position := position, tag := r.tag, addr := r.addr, length := r.length, eom := r.eom, quiet := r.quiet,
        requested := 0, read := 0, confirmed := 0, markCarried := false, markConfirmed := false,
        finishCycle := if r.length = 0 ∧ !r.eom ∧ env.up then some env.cycle else none }] }

/-- The assembler issues reads and deals with records of length 0 with the flag: ACTIVE, or CLOSING with its halt
cause absent (R49, R55). -/
def Stream.mayRead (st : Stream) : Bool :=
  st.state == .active || (st.state == .closing && st.cause.isNone)

/-- The send-buffer reads in flight. -/
def Stream.readsInFlight (st : Stream) : Nat := st.reads.countP fun r => r.data.isNone

/-- Bytes requested and not yet placed (R50). -/
def Stream.unplaced (st : Stream) : Nat :=
  (st.reads.map fun r => match r.data with
    | none => r.length
    | some d => d.length).sum

/-- The room of R50. -/
def Stream.room (st : Stream) : Nat :=
  (match st.filling? with
    | some (_, d) => st.maxLen - d.length
    | none => 0) + st.maxLen * st.buffers.countP Buffer.isFree

/-- Change the entry of a ring position. -/
def Stream.modSend (position : Nat) (f : SendEntry → SendEntry) (st : Stream) : Stream :=
  { st with sends := st.sends.map fun e => if e.position = position then f e else e }

/-- The FILLING buffer, or the FREE buffer that is claimed for it (R33, R52). -/
def Stream.fillTarget (st : Stream) : Option (Nat × List Byte) :=
  match st.filling? with
  | some kd => some kd
  | none => match st.freeIndex with
    | some k => some (k, [])
    | none => none

/-- Issue a read of `n` bytes for the entry `e` (R49); a FREE buffer is claimed if none is FILLING (R50). -/
def Stream.issueRead (e : SendEntry) (n : Nat) (st : Stream) : Stream :=
  let claimed := match st.filling?, st.freeIndex with
    | none, some k => st.setBuffer k (.filling [])
    | _, _ => st
  let bumped := claimed.modSend e.position fun x => { x with requested := x.requested + n }
  { bumped with
    reads := bumped.reads ++ [
      { position := e.position, addr := e.addr + BitVec.ofNat 64 e.requested, length := n, data := none }] }

/-- The length of the next read of `e`: at most 256, no more than is left of the record, shortened to the room less
the unplaced bytes (R49, R50). -/
def Stream.readLength (st : Stream) (e : SendEntry) : Nat :=
  min (min 256 (e.length - e.requested)) (st.room - st.unplaced)

/-- The record of length 0 with the flag at the assembly head is dealt with (R55). -/
def Stream.commitEmptyMark (e : SendEntry) (st : Stream) : Option Stream :=
  let carried := fun (x : Stream) => x.modSend e.position fun y => { y with markCarried := true }
  match st.filling? with
  | some (k, b :: d) => some (carried (st.commitBuffer k (b :: d) true))
  | _ => match st.freeIndex with
    | some k => some (carried (st.commitBuffer k [] true))
    | none => none

/-- One action for the assembly head: the mark of a record of length 0 once every earlier read has been placed (R51,
R55), or one read (R49, R50). -/
def Stream.assembleOne (st : Stream) : Option Stream :=
  if st.mayRead then
    match st.sends.find? fun e => !e.assembled with
    | none => none
    | some e =>
      if e.length = 0 then
        if st.reads.isEmpty then st.commitEmptyMark e else none
      else if e.requested < e.length ∧ st.readsInFlight < 4 ∧ 0 < st.readLength e then
        some (st.issueRead e (st.readLength e))
      else none
  else none

/-- Place the first bytes of returned data that fit the FILLING buffer (R33, R52), and commit at L or with the mark
(R34, R54). What crosses L stays for a placement of its own. The placement carries the mark when its last byte is the
last byte of a marked record (R52), also where an earlier read of that record has failed. -/
def Stream.placeBytes (r : SendRead) (rest : List SendRead) (data : List Byte) (k : Nat) (cur : List Byte)
    (st : Stream) : Stream :=
  let fits := data.take (st.maxLen - cur.length)
  let later := data.drop (st.maxLen - cur.length)
  let now := cur ++ fits
  let counted := st.modSend r.position fun e => { e with read := e.read + fits.length }
  let marked := later.isEmpty && counted.sends.any fun e =>
    e.position == r.position && e.eom && r.addr + BitVec.ofNat 64 r.length == e.addr + BitVec.ofNat 64 e.length
  let placed := { counted with
    reads := if later.isEmpty then rest else { r with data := some later } :: rest }
  if marked then
    (placed.commitBuffer k now true).modSend r.position fun e => { e with markCarried := true }
  else if st.maxLen ≤ now.length then placed.commitBuffer k now false
  else placed.setBuffer k (.filling now)

/-- One placement: of the oldest read, once it has returned (R52). -/
def Stream.placeOne (st : Stream) : Option Stream :=
  match st.reads with
  | r :: rest => match r.data with
    | some data => match st.fillTarget with
      | some (k, cur) => some (st.placeBytes r rest data k cur)
      | none => none
    | none => none
  | [] => none

/-- The commit of a graceful close: the last outstanding record is assembled, every read has been placed, and the
FILLING buffer holds at least one byte (R57). -/
def Stream.closeCommit (st : Stream) : Option Stream :=
  if st.state = .closing ∧ st.cause = none ∧ st.reads = [] ∧ st.sends.all SendEntry.assembled then
    match st.filling? with
    | some (k, b :: d) => some (st.commitBuffer k (b :: d) false)
    | _ => none
  else none

/-- Credit bytes to the entries in ring order, each as many as it lacks (R58). -/
def creditBytes : Nat → List SendEntry → List SendEntry
  | _, [] => []
  | n, e :: es =>
    let k := min n (e.length - e.confirmed)
    { e with confirmed := e.confirmed + k } :: creditBytes (n - k) es

/-- The mark goes to the first entry whose mark is carried and not yet confirmed (R58). -/
def creditMark : List SendEntry → List SendEntry
  | [] => []
  | e :: es =>
    if e.eom && e.markCarried && !e.markConfirmed then { e with markConfirmed := true } :: es
    else e :: creditMark es

/-- An entry that became finished takes the cycle number in force (R58). -/
def stampFinished (cycle : CycleNum) (before after : SendEntry) : SendEntry :=
  if !before.finished && after.finished then { after with finishCycle := some cycle } else after

/-- A packet of `n` bytes with this mark is confirmed in this cycle (R58). -/
def Stream.credit (n : Nat) (mark : Bool) (cycle : CycleNum) (st : Stream) : Stream :=
  let credited := creditBytes n st.sends
  let marked := if mark then creditMark credited else credited
  { st with sends := List.zipWith (stampFinished cycle) st.sends marked }

/-- The in-flight marker of the context (1.1). -/
def SeqState.inFlight : SeqState → Bool
  | .bestEffortOut _ f _ => f
  | _ => false

/-- The in-flight marker is cleared; the bit and the count stay (R10). -/
def SeqState.clearFlight : SeqState → SeqState
  | .bestEffortOut b _ n => .bestEffortOut b false n
  | q => q

/-- A packet is SENT and its outcome is still to come: the in-flight marker is set (1.1). A SENT packet whose marker is
clear has been answered DEFER in FLUSHING or HALTING; it stays in its buffer until it is discarded with the rest (R11,
R18, R37; notes/assumptions/21.md). -/
def Stream.awaitsAnswer (st : Stream) : Bool := st.sentIndex.isSome && st.seq.inFlight

/-- The SENT packet is abandoned: its buffer becomes FREE at once, with no credit (R10, R11, R24, R37). The next sequence
bit is not toggled. -/
def Stream.abandon (st : Stream) : Stream :=
  match st.sentIndex with
  | some _ =>
    let gone := st.discard Buffer.isSent
    { gone with seq := gone.seq.clearFlight }
  | none => st

end Sys2Proof.Machine
end

