-- ==== Sys2Proof/Machine/Distributor.lean ====
section
/-! DEFINITION. The Inbound Distributor (chapter 4) on one stream: joining, draining, writing, and ending a record. -/

namespace Sys2Proof.Machine

open Sys2Proof

/-- open: may be written into (4.2) -/
def ReceiveEntry.isOpen (e : ReceiveEntry) : Bool := decide (e.issued < e.capacity) && !e.markIssued

/-- done: closed and every write accepted (4.2) -/
def ReceiveEntry.isDone (e : ReceiveEntry) : Bool :=
  !e.isOpen && e.written == e.issued && (!e.markIssued || e.markDelivered)

/-- A completion of stream `i` for a receive record (R75). -/
def receiveCompletion (i : StreamId) (e : ReceiveEntry) (status : Status) : Completion :=
  { kind := .receive, stream := BitVec.ofNat 8 i.val, status := status, eom := e.markDelivered, gap := e.gap,
    stamp := e.firstCycle, position := e.position, tag := e.tag, count := e.written, code := 0 }

/-- A receive record that passes its checks joins the tail of the list (R67). -/
def Stream.joinReceive (position : Nat) (r : WorkRecord) (st : Stream) : Stream :=
  { st with
    receives := st.receives ++ [
      { position := position, tag := r.tag, addr := r.addr, capacity := r.length, quiet := r.quiet, issued := 0,
        written := 0, markIssued := false, markDelivered := false, firstCycle := none, gap := false }] }

/-- The stream may write into its records (R3): ACTIVE, or CLOSING with its halt cause absent until its delivery has
ended (R22). -/
def Stream.mayWrite (st : Stream) : Bool :=
  st.state == .active || (st.state == .closing && st.cause.isNone && st.stage == .waiting)

/-- Change the head of the receive record list. -/
def Stream.modHead (f : ReceiveEntry → ReceiveEntry) (st : Stream) : Stream :=
  { st with receives := match st.receives with
      | [] => []
      | e :: es => f e :: es }

/-- A zero-length packet is delivered into the head (R73): its mark ends the record; its gap mark acts with or
without it (R76). -/
def ReceiveEntry.takeEmpty (mark : Bool) (cycle : CycleNum) (gap : Bool) (e : ReceiveEntry) : ReceiveEntry :=
  { e with
    markIssued := e.markIssued || mark
    markDelivered := e.markDelivered || mark
    firstCycle := if mark && e.firstCycle.isNone then some cycle else e.firstCycle
    gap := e.gap || gap }

/-- The oldest HELD buffer is taken: it becomes DRAINING, or FREE at once if it is empty (R40, R69, R73). -/
def Stream.takeHeld (st : Stream) : Option Stream :=
  if st.mayWrite then
    match st.receives, st.queue, st.drainingIndex with
    | e :: _, k :: _, none =>
      if e.isOpen then
        match st.buffer k with
        | .held [] mark _ cycle gap => some ((st.freeBuffer k).modHead (ReceiveEntry.takeEmpty mark cycle gap))
        | .held data mark arrival cycle gap => some (st.setBuffer k (.draining data mark arrival cycle gap 0 0))
        | _ => none
      else none
    | _, _, _ => none
  else none

/-- One receive-buffer write of the DRAINING packet's next bytes into the open head (R70, R72, R73). -/
def Stream.issueWrite (st : Stream) : Option Stream :=
  if st.mayWrite ∧ st.writes.length < 4 then
    match st.receives, st.drainingIndex with
    | e :: _, some k =>
      match st.buffer k with
      | .draining data mark arrival cycle gap written issued =>
        if e.isOpen ∧ issued < data.length then
          let n := min (min 256 (data.length - issued)) (e.capacity - e.issued)
          let ends := mark && issued + n == data.length
          let moved := (st.setBuffer k (.draining data mark arrival cycle gap written (issued + n))).modHead
            fun x => { x with issued := x.issued + n, markIssued := x.markIssued || ends }
          some { moved with
            writes := moved.writes ++ [
              { addr := e.addr + BitVec.ofNat 64 e.issued, data := (data.drop issued).take n, last := ends }] }
        else none
      | _ => none
    | _, _ => none
  else none

/-- The memory port accepts a write of `n` bytes (R71): bytes written rise in the head and the DRAINING buffer, the
first-byte cycle and the GAP flag are dealt with, and the buffer becomes FREE with its last byte. -/
def Stream.countWrite (w : ReceiveWrite) (st : Stream) : Stream :=
  match st.drainingIndex with
  | some k =>
    match st.buffer k with
    | .draining data mark arrival cycle gap written issued =>
      let total := written + w.data.length
      let counted := st.modHead fun e => { e with
        written := e.written + w.data.length
        firstCycle := if e.firstCycle.isNone then some cycle else e.firstCycle
        gap := e.gap || gap
        markDelivered := e.markDelivered || w.last }
      if data.length ≤ total then counted.freeBuffer k
      else counted.setBuffer k (.draining data mark arrival cycle false total issued)
    | _ => st
  | none => st

/-- The issued counts are brought back to what was written, and a mark issued that was not delivered is cleared
(R80). -/
def Stream.bringBack (st : Stream) : Stream :=
  { st with
    receives := st.receives.map fun e => { e with
      issued := e.written, markIssued := e.markIssued && e.markDelivered }
    buffers := st.buffers.map fun b => match b with
      | .draining data mark arrival cycle gap written _ => .draining data mark arrival cycle gap written written
      | b => b
    writeFailed := false }

/-- The gap pending flag of a SCHEDULED IN stream is set; another stream has none (R76, R125). -/
def Stream.setGap (st : Stream) : Stream :=
  match st.seq with
  | .scheduledIn expected _ first => { st with seq := .scheduledIn expected true first }
  | _ => st

/-- A flush discards the IN packets that `p` picks, and at least one discarded sets the gap pending flag (R19, R76). -/
def Stream.flushDiscard (p : Buffer → Bool) (st : Stream) : Stream :=
  if st.buffers.any p then (st.discard p).setGap else st

/-- HELD or DRAINING -/
def Buffer.isKept (b : Buffer) : Bool := b.isHeld || b.isDraining

/-- FILLING, COMMITTED or SENT -/
def Buffer.isOutbound (b : Buffer) : Bool := b.isFilling || b.isCommitted || b.isSent

end Sys2Proof.Machine
end

