-- ==== Sys2Proof/Machine/Streams.lean ====
section
/-! DEFINITION. The life of one stream (chapter 1): halts, the stages of a halt, flush, close and abort, the hand-on of
work records, and the internal actions that follow from an event as soon as their conditions hold. -/

namespace Sys2Proof.Machine

open Sys2Proof

/-! ### Sequence state and reservations -/

/-- The initial link sequence state (R2). -/
def SeqState.initial (dir : Direction) (cls : StreamClass) : SeqState :=
  match cls, dir with
  | .bestEffort, .outbound => .bestEffortOut false false 0
  | .bestEffort, .inbound => .bestEffortIn false
  | .scheduled, .outbound => .scheduledOut 0
  | .scheduled, .inbound => .scheduledIn 0 false true

/-- The sequence state takes its initial value; no packet buffer changes (R2). -/
def Stream.resetSeq (st : Stream) : Stream := { st with seq := .initial st.dir st.cls }

/-- ACTIVE, FLUSHING or CLOSING with the halt cause absent: a halt can be decided (R9). -/
def Stream.mayHalt (st : Stream) : Bool :=
  (st.state == .active || st.state == .flushing || st.state == .closing) && st.cause.isNone

/-- packets per cycle × (L + 12) (R7) -/
def Stream.reservation (st : Stream) : Nat := st.perCycle * (st.maxLen + 12)

/-- A SCHEDULED OUT stream holds its reservation while ACTIVE, FLUSHING or CLOSING with its halt cause absent (R7). -/
def Stream.holdsReservation (st : Stream) : Bool :=
  st.cls == .scheduled && st.dir == .outbound && st.mayHalt

/-- A best-effort OUT stream. -/
def Stream.isBestEffortOut (st : Stream) : Bool := st.cls == .bestEffort && st.dir == .outbound

/-- The cause makes a best-effort OUT stream abandon its SENT packet at once (R10). -/
def HaltCause.abandons : HaltCause → Bool
  | .linkLost => true
  | .noAnswer => true
  | .peerClosed => true
  | _ => false

/-- A halt is decided: the cause is recorded and the state becomes HALTING (R9); for some causes the SENT packet is
abandoned at once (R10). -/
def Stream.beginHalt (cause : HaltCause) (st : Stream) : Stream :=
  let kept := if cause.abandons then st.abandon else st
  { kept with state := .halting, cause := some cause, stage := .waiting }

/-! ### The work ring -/

/-- (a − b) mod size -/
def ringSub (size a b : Nat) : Nat := (a + size - b) % size

/-- The pending count (R154). -/
def HostRing.pendingCount (r : HostRing) : Nat := ringSub r.size r.posted r.taken

/-- A position lies in the span from taken to posted (R156). -/
def HostRing.inSpan (r : HostRing) (p : Nat) : Bool := ringSub r.size p r.taken < r.pendingCount

/-- A freshly configured host-written ring (R151, R152). -/
def HostRing.fresh (base : Addr) (size : Nat) : HostRing :=
  { base := base, size := size, posted := 0, taken := 0, fetchPos := 0, fetches := [], returned := [] }

/-- A producer NOTIFY (R154): posted becomes the index, and what has been fetched beyond it is cut off. -/
def HostRing.post (index : Nat) (r : HostRing) : HostRing :=
  let moved := { r with posted := index }
  { moved with
    fetchPos := if moved.pendingCount < ringSub r.size r.fetchPos r.taken then index else r.fetchPos
    fetches := r.fetches.map fun f => { f with dropped := f.dropped || !moved.inSpan f.position }
    returned := r.returned.filter fun pr => moved.inSpan pr.1 }

/-- A fetch of the record at the fetch position is issued, and the fetch position moves on (R155, R157). -/
def HostRing.fetch (r : HostRing) : HostRing :=
  { r with
    fetches := r.fetches ++ [{ position := r.fetchPos, dropped := false }]
    fetchPos := (r.fetchPos + 1) % r.size }

/-- There are records posted and not yet fetched, and fetches in flight, records held and `others` come to fewer than
8 (R155, R157). -/
def HostRing.mayFetch (others : Nat) (r : HostRing) : Bool :=
  decide (ringSub r.size r.fetchPos r.taken < r.pendingCount) &&
    decide (r.fetches.length + r.returned.length + others < 8)

/-- The `slot`-th fetch in flight ends; its data is held unless the fetch was cut off (R156). -/
def HostRing.fetchReturned (slot : Nat) (record : BitVec 256) (r : HostRing) : HostRing :=
  match r.fetches[slot]? with
  | some f =>
    { r with
      fetches := r.fetches.eraseIdx slot
      returned := if f.dropped then r.returned else r.returned ++ [(f.position, record)] }
  | none => r

/-- The record held for the taken position, and the ring once it has been taken (R156, R157). -/
def HostRing.next? (r : HostRing) : Option (BitVec 256 × HostRing) :=
  if 0 < r.pendingCount then
    match r.returned.find? fun pr => pr.1 == r.taken with
    | some pr =>
      some (pr.2, { r with
        taken := (r.taken + 1) % r.size, returned := r.returned.filter fun q => q.1 != r.taken })
    | none => none
  else none

/-- The records held are discarded and the fetch position returns to taken (R156). -/
def HostRing.discard (r : HostRing) : HostRing := { r with returned := [], fetchPos := r.taken }

/-! ### Internal actions -/

/-- The stream's records leave as its rules R59 and R74 state: not once its own work completes them otherwise. -/
def Stream.mayLeave (st : Stream) : Bool :=
  (st.state == .active || st.state == .halting || st.state == .flushing || st.state == .closing) &&
    (st.stage == .idle || st.stage == .waiting || st.stage == .leaving)

/-- The head of the list is finished (OUT) or done (IN). -/
def Stream.headEnded (st : Stream) : Bool :=
  match st.dir with
  | .outbound => match st.sends with
    | e :: _ => e.finished
    | [] => false
  | .inbound => match st.receives with
    | e :: _ => e.isDone
    | [] => false

/-- A finished or done head leaves the list; it forms a completion with status OK unless it is quiet (R59, R74). -/
def Stream.leaveOne (i : StreamId) (st : Stream) : Option Stream :=
  if st.mayLeave ∧ st.held = none then
    match st.dir with
    | .outbound => match st.sends with
      | e :: es =>
        if e.finished then
          let left := { st with sends := es }
          some (if e.quiet then left else left.hold (sendCompletion i e .ok))
        else none
      | [] => none
    | .inbound => match st.receives with
      | e :: es =>
        if e.isDone then
          let left := { st with receives := es }
          some (if e.quiet then left else left.hold (receiveCompletion i e .ok))
        else none
      | [] => none
  else none

/-- The status the table of R12 gives the outstanding records, or the head receive record, for a cause. What a failed
read changes for the outstanding records (R53) is in `Stream.entryStatus`. -/
def HaltCause.status : HaltCause → Status
  | .badRecord => .aborted
  | .memoryError => .aborted
  | .fetchError => .aborted
  | .linkLost => .linkLost
  | .noAnswer => .noAnswer
  | .peerClosed => .peerClosed
  | .profileMismatch => .aborted

/-- The status of one outstanding record as the stream's work completes it (R12, R53): the failed record of a
MEMORY_ERROR halt completes MEMORY_ERROR, and in a halt for another cause into which a failed read fell every record
completes ABORTED. That this goes before the table of R12 for LINK_LOST, NO_ANSWER and PEER_CLOSED is the model's choice
between the two rules: notes/assumptions/55.md. -/
def Stream.entryStatus (st : Stream) (e : SendEntry) (status : Status) : Status :=
  if st.state = .halting then
    if st.cause = some .memoryError then if st.failed = some e.position then .memoryError else status
    else if st.failed.isSome then .aborted
    else status
  else status

/-- The next completion of the stream's halt, flush, close or abort, once none is held (R12): the records in ring
order, then the bad record (R46, R66). -/
def Stream.completeNext (i : StreamId) (status : Status) (st : Stream) : Stream :=
  match st.dir, st.sends, st.receives with
  | .outbound, e :: es, _ => { st with sends := es }.hold (sendCompletion i e (st.entryStatus e status))
  | .inbound, _, e :: es => { st with receives := es }.hold (receiveCompletion i e status)
  | _, _, _ => match st.bad with
    | some b =>
      if b.formed then { st with stage := .finished }
      else { st with bad := some { b with formed := true } }.hold
        (badCompletion i st.dir b (if st.state = StreamState.halting then .badRecord else .aborted))
    | none => { st with stage := .finished }

/-- The head record alone completes (R12, R19). A flush has nothing more to form once its FLUSHED completion is formed;
until then a halt that intervenes leaves it the head to complete (R23). -/
def Stream.completeHeadOnly (i : StreamId) (status : Status) (st : Stream) : Stream :=
  match st.receives with
  | e :: es =>
    { st with
      receives := es, stage := .awaitWrite
      request := if status = Status.flushed then some .flushRest else st.request }.hold (receiveCompletion i e status)
  | [] => { st with stage := .finished }

/-- The stages that complete records move on when no completion is held. -/
def Stream.windCompletions (i : StreamId) (st : Stream) : Option Stream :=
  if st.held = none then
    match st.stage with
    | .completeHead status => some (st.completeHeadOnly i status)
    | .completeAll status => some (st.completeNext i status)
    | .awaitWrite => some { st with stage := .finished }
    | _ => none
  else none

/-- The waits of R10: fetches, reads and writes already issued, and the outcome of a SENT packet. -/
def Stream.waitsEnded (st : Stream) : Bool :=
  st.ring.fetches.isEmpty && st.readsInFlight == 0 && st.writes.isEmpty && !st.awaitsAnswer

/-- What a halt completes once finished heads have left (R12, R80). -/
def Stream.haltStage (st : Stream) : Stage :=
  let status := (st.cause.map HaltCause.status).getD .aborted
  match st.dir with
  | .outbound => if st.sends.isEmpty ∧ st.bad = none then .finished else .completeAll status
  | .inbound => match st.cause, st.receives with
    | some .badRecord, _ => .completeAll .aborted
    | _, [] => .finished
    | some .memoryError, _ => .completeHead .memoryError
    | _, e :: _ => if 1 ≤ e.written then .completeHead status else .finished

/-- The head record of an IN stream, if there is one, completes FLUSHED (R19). -/
def Stream.flushHeadStage (st : Stream) : Stage :=
  if st.receives.isEmpty then .finished else .completeHead .flushed

/-- The stream holds a FLUSHED completion: one that a flush calls for and that has not been written (R20). -/
def Stream.holdsFlushed (st : Stream) : Bool := st.held.any fun h => h.completion.status == .flushed

/-- HALTING (R10, R12, R23): the waits, the discards, the completions, and then HALTED, or the request in flight. A flush
ends only when no FLUSHED completion of it is unwritten (R20). A halt that forms no completion of its own does not wait
for one held from before it, nor does a flush for one that is not its own: the model's choice,
notes/assumptions/51.md. -/
def Stream.windHalting (i : StreamId) (st : Stream) : Option (Stream × Effect) :=
  match st.stage with
  | .waiting =>
    if st.waitsEnded then
      let settled := match st.dir with
        | .outbound => { st.discard Buffer.isOutbound with reads := [] }
        | .inbound => st.bringBack
      some ({ settled with stage := .leaving }, .none)
    else none
  | .leaving => if st.headEnded then none else some ({ st with stage := st.haltStage }, .none)
  | .finished =>
    let ended := { st with failed := none }
    match st.request with
    | none => some ({ ended with state := .halted, stage := .idle }, .none)
    | some .flush => match st.dir with
      | .outbound => some ({ ended with request := some .flushRest }, .none)
      | .inbound =>
        some ({ ended.flushDiscard Buffer.isKept with
          request := some .flushRest, stage := ended.flushHeadStage }, .none)
    | some .flushRest =>
      if st.holdsFlushed then none
      else some ({ ended with state := .halted, stage := .idle, request := none }, .flushed)
    | some .close => some ({ ended with state := .closing, stage := .waiting }, .none)
  | _ => (st.windCompletions i).map fun x => (x, .none)

/-- FLUSHING (R18, R19, R20). A halt that intervenes finds in the request whether the head of an IN stream is still to
complete FLUSHED (R23, R82). -/
def Stream.windFlushing (i : StreamId) (st : Stream) : Option (Stream × Effect) :=
  match st.stage with
  | .waiting => match st.dir with
    | .outbound =>
      if st.readsInFlight = 0 ∧ st.awaitsAnswer = false then
        some ({ st.discard Buffer.isOutbound with reads := [], stage := .leaving }, .none)
      else none
    | .inbound =>
      if st.writes = [] then some ({ (st.flushDiscard Buffer.isDraining).bringBack with stage := .leaving }, .none)
      else none
  | .leaving =>
    if st.headEnded then none
    else match st.dir with
      | .outbound =>
        some ({ st with stage := if st.sends.isEmpty then .finished else .completeAll .flushed }, .none)
      | .inbound => some ({ st with stage := st.flushHeadStage }, .none)
  | .finished =>
    some ({ st with state := if st.cause = none then .active else .halted, stage := .idle, request := none }, .flushed)
  | _ => (st.windCompletions i).map fun x => (x, .none)

/-- Nothing of the stream is on its way: no fetch, no record held, no completion held (R26, R152). -/
def Stream.quietRing (st : Stream) : Bool :=
  st.ring.fetches.isEmpty && st.ring.returned.isEmpty && st.held.isNone

/-- CLOSING (R21, R22). -/
def Stream.windClosing (i : StreamId) (st : Stream) : Option (Stream × Effect) :=
  match st.dir with
  | .outbound =>
    if st.sends = [] ∧ st.buffers.all Buffer.isFree ∧ st.reads = [] ∧ st.quietRing then some (st, .released) else none
  | .inbound => match st.stage with
    | .waiting =>
      if st.writes = [] ∧ (st.cause.isSome ∨ st.buffers.any Buffer.isKept = false ∨ st.receives = []) then
        some ({ st.discard Buffer.isKept with stage := .leaving }, .none)
      else none
    | .leaving =>
      if st.headEnded then none
      else some ({ st with stage := if st.receives.isEmpty then .finished else .completeAll .closed }, .none)
    | .finished =>
      if st.receives ≠ [] then some ({ st with stage := .completeAll .closed }, .none)
      else if st.quietRing ∧ st.buffers.any Buffer.isReceiving = false then some (st, .released) else none
    | _ => (st.windCompletions i).map fun x => (x, .none)

/-- ABORTING (R24): the reads and writes already issued end; the OUT packets are discarded; every taken record
completes ABORTED; the stream is released once the fetches already issued have ended (R152). -/
def Stream.windAborting (i : StreamId) (st : Stream) : Option (Stream × Effect) :=
  match st.stage with
  | .waiting =>
    if st.readsInFlight = 0 ∧ st.writes = [] then
      let settled := match st.dir with
        | .outbound => { st.discard Buffer.isOutbound with reads := [] }
        | .inbound => st
      some ({ settled with stage := .completeAll .aborted }, .none)
    else none
  | .finished => if st.ring.fetches = [] then some (st, .released) else none
  | _ => (st.windCompletions i).map fun x => (x, .none)

/-- The next step of the halt, flush, close or abort in progress. -/
def Stream.wind (i : StreamId) (st : Stream) : Option (Stream × Effect) :=
  match st.state with
  | .active => none
  | .halted => none
  | .halting => st.windHalting i
  | .flushing => st.windFlushing i
  | .closing => st.windClosing i
  | .aborting => st.windAborting i

/-- Records that return to a stream HALTING, HALTED or ABORTING are discarded, and the fetch position returns to taken
(R3, R156; notes/assumptions/48.md). One that was held already, behind a fetch still in flight, when the stream came to
such a state is discarded at once: the model's choice, notes/assumptions/57.md. -/
def Stream.dropReturned (st : Stream) : Option Stream :=
  if (st.state = .halting ∨ st.state = .halted ∨ st.state = .aborting) ∧
      (st.ring.returned ≠ [] ∨ (st.ring.fetches = [] ∧ st.ring.fetchPos ≠ st.ring.taken)) then
    some { st with ring := st.ring.discard }
  else none

/-- The record at the taken position is handed on to a stream ACTIVE, FLUSHING or CLOSING with no held completion: it
joins its list, or fails its checks and halts the stream (R45, R47, R65, R67, R156). -/
def Stream.handOn (env : Env) (st : Stream) : Option (Stream × Effect) :=
  if (st.state = .active ∨ st.state = .flushing ∨ st.state = .closing) ∧ st.held = none then
    match st.ring.next? with
    | some (bits, ring) =>
      let r := WorkRecord.read bits
      let taken := { st with ring := ring }
      let valid := match st.dir with
        | .outbound => r.validSend
        | .inbound => r.validReceive
      if valid then
        some (match st.dir with
          | .outbound => taken.joinSend env st.ring.taken r
          | .inbound => taken.joinReceive st.ring.taken r, .none)
      else if st.mayHalt then
        some ({ taken with bad := some { position := st.ring.taken, tag := r.tag, formed := false } }.beginHalt
          .badRecord, .halted .badRecord)
      else some (taken, .none)
    | none => none
  else none

/-- A work record fetch is issued (R155). -/
def Stream.fetchOne (env : Env) (st : Stream) : Option Stream :=
  if env.running ∧ st.state = .active ∧ st.held = none ∧
      st.ring.mayFetch (st.sends.length + st.receives.length) then
    some { st with ring := st.ring.fetch }
  else none

/-- The first of the options that is present. -/
def firstSome {α : Type} : List (Option α) → Option α
  | [] => none
  | some a :: _ => some a
  | none :: os => firstSome os

/-- An action that asks nothing of the rest of the part. -/
def plain (o : Option Stream) : Option (Stream × Effect) := o.map fun x => (x, .none)

/-- The next internal action of stream `i`, if one is enabled. The order is the model's where no rule orders two
(notes/assumptions/5.md): a head that may leave leaves before a record is handed on (R161: the stream "examines its
list head again and may take records"), and reads are placed before a halt or flush looks for reads in flight. A record
that returns in HALTING is discarded before the halt goes on, so that no later state of the stream finds it (R3, R10). -/
def Stream.internal (env : Env) (i : StreamId) (st : Stream) : Option (Stream × Effect) :=
  firstSome [plain (st.leaveOne i), plain st.placeOne, plain st.dropReturned, st.wind i, st.handOn env,
    plain st.assembleOne, plain st.closeCommit, plain st.takeHeld, plain st.issueWrite, plain (st.fetchOne env)]

end Sys2Proof.Machine
end

