-- ==== Sys2Proof/Machine/Ops.lean ====
section
/-! DEFINITION. The named operations over the whole body of the part: events, streams with their watches, completions
and requests, notices and due frames, release. Every change of a stream goes through `Body.put`. -/

namespace Sys2Proof.Machine

open Sys2Proof

/-! ### Events -/

/-- A raised event merges into the pending entry of its source and kind, whose count stays at 255, or joins the tail
(R174). -/
def raiseInto (source : Option StreamId) (detail : Detail) : List Event → List Event
  | [] => [{ source := source, detail := detail, count := 1 }]
  | e :: es =>
    if e.source = source ∧ e.detail.kind = detail.kind then
      { e with detail := detail, count := if e.count < 255 then e.count + 1 else 255 } :: es
    else e :: raiseInto source detail es

/-- Raise an event (R174). -/
def Body.raise (source : Option StreamId) (detail : Detail) (b : Body) : Body :=
  { b with events := raiseInto source detail b.events }

/-! ### Streams -/

/-- The context of a stream; `none` is CLOSED. -/
def Body.stream (b : Body) (i : StreamId) : Option Stream := b.streams[i]

/-- The value of the measure a watch names (2.5). -/
def Stream.measure (st : Stream) : Measure → Nat
  | .wholeStore => st.wholeStore
  | .openPacket => st.openPacket

/-- The condition of settings at a value (R88). -/
def watchCondition (dir : WatchDirection) (threshold value : Nat) : Bool :=
  match dir with
  | .atOrAbove => decide (threshold ≤ value)
  | .atOrBelow => decide (value ≤ threshold)

/-- The watch of a stream after a store event that took it from `old` to `new`, and the condition to report if it
changed (R42, R43, R89). -/
def watchAfter (old new : Stream) : Option Watch × Option Bool :=
  match new.watch with
  | some w =>
    let c := watchCondition w.dir w.threshold (new.measure w.measure)
    if old.measure w.measure ≠ new.measure w.measure ∧ c ≠ w.condition then
      (some { w with condition := c }, some c)
    else (some w, none)
  | none => (none, none)

/-- The DATA frame under way is cut when its buffer has become FREE (R112). -/
def laneAfter (i : StreamId) (st : Stream) (lane : Option Lane) : Option Lane :=
  match lane with
  | some (.data h k p) => if h.stream = i ∧ (st.buffer k).isFree then none else some (.data h k p)
  | l => l

/-- Stream `i`, which was `old`, becomes `new` in one store event: its watch is evaluated, and a DATA frame sent from a
buffer that has become FREE is cut. -/
def Body.put (i : StreamId) (old new : Stream) (b : Body) : Body :=
  let w := watchAfter old new
  let stored := { b with
    streams := b.streams.set i (some { new with watch := w.1 })
    lt := { b.lt with lane := laneAfter i new b.lt.lane } }
  match w.2 with
  | some c => stored.raise (some i) (.watch c)
  | none => stored

/-- Change stream `i`, if it is open, in one store event. -/
def Body.modify (i : StreamId) (f : Stream → Stream) (b : Body) : Body :=
  match b.stream i with
  | some st => b.put i st (f st)
  | none => b

/-- Change every open stream in increasing stream number. -/
def Body.modifyAll (f : Stream → Stream) (b : Body) : Body :=
  (List.finRange 16).foldl (fun b i => b.modify i f) b

/-- The reserved sum (R108). -/
def Body.reservedSum (b : Body) : Nat :=
  (b.streams.toList.map fun o => match o with
    | some st => if st.holdsReservation then st.reservation else 0
    | none => 0).sum

/-! ### Requests in flight -/

/-- The entry completes: its completion becomes the held completion (R169). -/
def Entry.complete (status : Status) (result : Nat) (e : Entry) : Entry :=
  { e with
    work := .none
    held := some
      { stage := .formed
        completion :=
          { kind := .admin, stream := if isStreamCode e.code then e.field else 0, status := status, eom := false,
            gap := false, stamp := none, position := e.position, tag := e.tag, count := result, code := e.code } } }

/-- Every request that `p` picks and that has not completed, completes (R169). -/
def Body.completeIf (p : Entry → Bool) (status : Status) (result : Nat) (b : Body) : Body :=
  { b with table := b.table.map fun e => if e.held = none ∧ p e then e.complete status result else e }

/-- The request of an entry completes. -/
def Body.completeId (id : Nat) (status : Status) (result : Nat) (b : Body) : Body :=
  b.completeIf (fun e => e.id == id) status result

/-- The request of a code that is in flight for stream `i` completes. -/
def Body.completeFor (i : StreamId) (code : Byte) (status : Status) (result : Nat) (b : Body) : Body :=
  b.completeIf (fun e => e.stream == some i && e.code == code) status result

/-! ### Notices and due frames -/

/-- A control frame becomes due in the event under way (R112). -/
def Body.addDue (f : ControlFrame) (b : Body) : Body := { b with lt := { b.lt with fresh := b.lt.fresh ++ [f] } }

/-- Frames that are due and not yet sent are dropped. -/
def Body.dropDue (p : ControlFrame → Bool) (b : Body) : Body :=
  { b with lt := { b.lt with due := b.lt.due.filter (!p ·), fresh := b.lt.fresh.filter (!p ·) } }

/-- 1 OPENED, 2 CLOSED -/
def noticeCode (closed : Bool) : Byte := if closed then 2 else 1

/-- A notice is placed in the queue: it replaces any notice queued for the stream and becomes due at once (R126). -/
def Body.placeNotice (i : StreamId) (closed : Bool) (b : Body) : Body :=
  let cleared := b.dropDue (ControlFrame.isNoticeOf i)
  { cleared with
    lt := { cleared.lt with
      notices := cleared.lt.notices.filter (·.stream != i) ++
        [{ stream := i, closed := closed, sends := 0, waited := false, due := true }]
      fresh := cleared.lt.fresh ++ [.notice i (noticeCode closed)] } }

/-- The stream has its own NOTICE(OPENED) in the queue (R127). -/
def Body.awaitsOpened (i : StreamId) (b : Body) : Bool := b.lt.notices.any fun n => n.stream == i && !n.closed

/-- The best-effort stream is re-synchronised: its sequence state is reset, and with the link UP a NOTICE(OPENED) is
placed (R13). -/
def Body.resynchronise (up : Bool) (i : StreamId) (b : Body) : Body :=
  let reset := b.modify i Stream.resetSeq
  if up then reset.placeNotice i false else reset

/-! ### Halts and release -/

/-- A halt is decided for stream `i` if its state admits one, and STREAM_HALTED is raised (R9), after the WATCH event that
the discard of an abandoned SENT packet may raise: the model's choice, notes/assumptions/17.md. -/
def Body.halt (i : StreamId) (cause : HaltCause) (b : Body) : Body :=
  match b.stream i with
  | some st => if st.mayHalt then (b.put i st (st.beginHalt cause)).raise (some i) (.streamHalted cause) else b
  | none => b

/-- What a GONE, a NOTICE or the sixteenth unanswered send does: the halt, or for a stream HALTING for a local cause the
end of its wait for the SENT packet (R11). A packet that is awaited no longer, since a DEFER has been its outcome, goes
with the discard of the rest (R11, R37, R128), or with the link (R113, R147). -/
def Body.haltOrAbandon (i : StreamId) (cause : HaltCause) (b : Body) : Body :=
  match b.stream i with
  | some st =>
    if st.mayHalt then b.halt i cause
    else if st.state = .halting ∧ st.awaitsAnswer then b.put i st st.abandon
    else b
  | none => b

/-- A claim made for stream `i` by the frame that is arriving is dropped (R26, R30). If the stream is opened again before
the frame's end, the frame is decided there without a claim by the state it finds: the model's choice,
notes/assumptions/58.md. -/
def dropClaim (i : StreamId) (rx : Option Reception) : Option Reception :=
  match rx with
  | some r => some (if r.header.stream = i then { r with claim := none } else r)
  | none => none

/-- A DATA frame of stream `i` under way is cut (R112). -/
def cutStream (i : StreamId) (lane : Option Lane) : Option Lane :=
  match lane with
  | some (.data h k p) => if h.stream = i then none else some (.data h k p)
  | l => l

/-- The CLOSE_STREAM or ABORT_STREAM of a stream that is released completes OK: the taken position, or for a close of
an IN stream the bytes discarded (R21, R22, R24). -/
def Body.completeRelease (i : StreamId) (st : Stream) (b : Body) : Body :=
  if st.state = .aborting then b.completeFor i 3 .ok st.ring.taken
  else b.completeFor i 2 .ok (match st.dir with
    | .outbound => st.ring.taken
    | .inbound => st.discarded)

/-- Stream `i` is released (R26, R30): every block becomes free, the RECEIVING buffer is dropped, the watch and the
work ring go with the context, a pending SCHEDULE_MISS is withdrawn (R175), with the link UP a NOTICE(CLOSED) is placed,
and the request completes. -/
def Body.release (up : Bool) (i : StreamId) (st : Stream) (b : Body) : Body :=
  let gone := { b with
    streams := b.streams.set i none
    blocks := releaseBlocks i b.blocks
    events := b.events.filter fun e => !(e.source == some i && e.detail.kind == 3)
    rx := dropClaim i b.rx
    lt := { b.lt with lane := cutStream i b.lt.lane } }
  (if up then gone.placeNotice i true else gone).completeRelease i st

/-! ### The internal actions of the streams -/

/-- Carry out what an internal action asks of the rest of the part. -/
def Body.applyEffect (env : Env) (i : StreamId) (st : Stream) (effect : Effect) (b : Body) : Body :=
  match effect with
  | .none => b
  | .halted cause => b.raise (some i) (.streamHalted cause)
  | .flushed => b.completeFor i 4 .ok st.discarded
  | .released => b.release env.up i st

/-- Take the enabled internal actions of stream `i` one after another, at most `n` of them. In one event a stream has
fewer than 256 (notes/assumptions/6.md). -/
def Body.runStream (env : Env) : Nat → StreamId → Body → Body
  | 0, _, b => b
  | n + 1, i, b =>
    match b.stream i with
    | some st => match st.internal env i with
      | some (st', effect) => ((b.put i st st').applyEffect env i st' effect).runStream env n i
      | none => b
    | none => b

/-- The internal actions of every stream, in increasing stream number. -/
def Body.runStreams (env : Env) (b : Body) : Body :=
  (List.finRange 16).foldl (fun b i => b.runStream env 256 i) b

end Sys2Proof.Machine
end

