-- ==== Sys2Proof/Machine/Rings.lean ====
section
/-! DEFINITION. The Ring Interface (chapter 9): waiting lists, writes into part-written rings, interrupt messages,
fetches of the admin ring, and NOTIFY. -/

namespace Sys2Proof.Machine

open Sys2Proof

/-! ### Part-written rings -/

/-- The space of R159. -/
def PartRing.space (r : PartRing) : Nat := r.size - 1 - ringSub r.size r.put r.freed

/-- Put moves on by one; the phase flips when it moves from size − 1 to 0 (R159). -/
def PartRing.advance (r : PartRing) : PartRing :=
  { r with put := (r.put + 1) % r.size, phase := if r.put + 1 = r.size then !r.phase else r.phase }

/-- A freshly configured part-written ring (R151). -/
def PartRing.fresh (base : Addr) (size : Nat) (intAddr : Addr) (intValue : Word) : PartRing :=
  { base := base, size := size, put := 0, freed := 0, phase := true, armed := false, intAddr := intAddr,
    intValue := intValue }

/-- The interrupt message an ARMED ring with unconsumed entries issues, and the ring DISARMED (R163). -/
def PartRing.interrupt (r : PartRing) : PartRing × List RingWrite :=
  if r.armed ∧ r.put ≠ r.freed then
    ({ r with armed := false }, [{ kind := .interrupt, addr := r.intAddr, data := bytesOf 4 r.intValue }])
  else (r, [])

/-- Write an entry of these bytes into position put: the ring moves on, and its interrupt message follows the write if
it is ARMED (R159, R163). -/
def PartRing.write (kind : RingWriteKind) (entry : Bool → List Byte) (r : PartRing) : PartRing × List RingWrite :=
  let bytes := entry r.phase
  let message := r.advance.interrupt
  (message.1, { kind := kind, addr := r.base + BitVec.ofNat 64 (r.put * bytes.length), data := bytes } :: message.2)

/-- A consumer index is in span (R158). -/
def PartRing.inSpan (index : Nat) (r : PartRing) : Bool :=
  decide (ringSub r.size index r.freed ≤ ringSub r.size r.put r.freed)

/-- A NOTIFY in span: freed becomes the index, ARM arms the ring, and R163 is applied (R158). -/
def PartRing.consume (index : Nat) (arm : Bool) (r : PartRing) : PartRing × List RingWrite :=
  { r with freed := index, armed := r.armed || arm }.interrupt

/-! ### Completions -/

/-- The held completion of a source. -/
def Body.heldOf (b : Body) : Source → Option Held
  | .stream i => (b.stream i).bind Stream.held
  | .admin id => (b.table.find? fun e => e.id == id).bind Entry.held

/-- Mark the held completion of a source. -/
def Body.setHeldStage (src : Source) (stage : HeldStage) (b : Body) : Body :=
  let mark := fun (h : Option Held) => h.map fun x => { x with stage := stage }
  match src with
  | .stream i => b.modify i fun st => { st with held := mark st.held }
  | .admin id => { b with table := b.table.map fun e => if e.id = id then { e with held := mark e.held } else e }

/-- The completion ring a source completes on: its bound ring, or completion ring 0 for an admin request (9.5). -/
def Body.ringOf (b : Body) : Source → Fin 4
  | .stream i => ((b.stream i).map Stream.bound).getD 0
  | .admin _ => 0

/-- A source whose completion has just been formed joins the tail of its ring's waiting list (R160). -/
def Body.joinWaiting (b : Body) (src : Source) : Body :=
  match b.heldOf src, b.completion[b.ringOf src] with
  | some h, some cr =>
    if h.stage = .formed then
      { b with completion := b.completion.set (b.ringOf src) (some { cr with waiting := cr.waiting ++ [src] }) }
        |>.setHeldStage src .waiting
    else b
  | _, _ => b

/-- The sources whose completions were formed in the event under way join: streams in increasing stream number, then
admin entries in the ring order of their requests (R160). -/
def Body.joinAll (b : Body) : Body :=
  let streams := (List.finRange 16).foldl (fun b i => b.joinWaiting (.stream i)) b
  (streams.table.map fun e => Source.admin e.id).foldl Body.joinWaiting streams

/-- The write of the waiting list's head is issued while the ring has space (R161). -/
def Body.issueCompletions : Nat → Fin 4 → Body → Body
  | 0, _, b => b
  | n + 1, c, b =>
    match b.completion[c] with
    | some cr => match cr.waiting with
      | src :: rest =>
        if 0 < cr.ring.space then
          match b.heldOf src with
          | some h =>
            let w := cr.ring.write (.completion src) h.completion.bytes
            ({ b with
              completion := b.completion.set c (some { ring := w.1, waiting := rest })
              ringWrites := b.ringWrites ++ w.2 }.setHeldStage src .writing).issueCompletions n c
          | none =>
            { b with completion := b.completion.set c (some { cr with waiting := rest }) }.issueCompletions n c
        else b
      | [] => b
    | none => b

/-- The completion rings in increasing number. -/
def Body.issueAllCompletions (b : Body) : Body :=
  (List.finRange 4).foldl (fun b c => b.issueCompletions 24 c) b

/-- The head pending event is written while the event ring has space, and leaves the list (R162). -/
def Body.issueEvents : Nat → Body → Body
  | 0, b => b
  | n + 1, b =>
    match b.event, b.events with
    | some r, e :: es =>
      if 0 < r.space then
        let w := r.write .event e.bytes
        { b with event := some w.1, events := es, ringWrites := b.ringWrites ++ w.2 }.issueEvents n
      else b
    | _, _ => b

/-! ### Fetches of the admin ring -/

/-- Admin fetches are issued while there is room for their records in the in-flight table (R157). -/
def Body.fetchAdmin (env : Env) : Nat → Body → Body
  | 0, b => b
  | n + 1, b =>
    match b.admin with
    | some r =>
      if env.running ∧ r.mayFetch b.table.length then { b with admin := some r.fetch }.fetchAdmin env n else b
    | none => b

/-! ### NOTIFY -/

/-- A bad NOTIFY changes nothing and raises BAD_NOTIFY (R153). -/
def Body.badNotify (ring : Nat) (index : BitVec 16) (b : Body) : Body := b.raise none (.badNotify ring index)

/-- A NOTIFY of a part-written ring (R153, R158); `store` puts the ring back. -/
def Body.notifyPart (ring : Nat) (index : BitVec 16) (arm : Bool) (r : PartRing) (store : PartRing → Body → Body)
    (b : Body) : Body :=
  if index.toNat < r.size ∧ r.inSpan index.toNat then
    let w := r.consume index.toNat arm
    { store w.1 b with ringWrites := b.ringWrites ++ w.2 }
  else b.badNotify ring index

/-- A decoded NOTIFY (R153, R154, R158). `running` is false in STOPPING, where one that names a host-written ring is
ignored. -/
def Body.notify (running : Bool) (ring : Nat) (index : BitVec 16) (arm : Bool) (b : Body) : Body :=
  if ring ≤ 16 ∧ !running then b
  else if ring = 0 then
    match b.admin with
    | some r => if index.toNat < r.size then { b with admin := some (r.post index.toNat) } else b.badNotify ring index
    | none => b.badNotify ring index
  else if h : 1 ≤ ring ∧ ring ≤ 16 then
    let i : StreamId := ⟨ring - 1, by omega⟩
    match b.stream i with
    | some st =>
      if index.toNat < st.ring.size then b.put i st { st with ring := st.ring.post index.toNat }
      else b.badNotify ring index
    | none => b.badNotify ring index
  else if h : 17 ≤ ring ∧ ring ≤ 20 then
    let c : Fin 4 := ⟨ring - 17, by omega⟩
    match b.completion[c] with
    | some cr =>
      b.notifyPart ring index arm cr.ring fun r b => { b with
        completion := b.completion.set c (some { cr with ring := r }) }
    | none => b.badNotify ring index
  else if ring = 21 then
    match b.event with
    | some r => b.notifyPart ring index arm r fun r b => { b with event := some r }
    | none => b.badNotify ring index
  else b.badNotify ring index

end Sys2Proof.Machine
end

