-- ==== Sys2Proof/Machine/Link.lean ====
section
/-! DEFINITION. Link Transfer (chapter 7): the transmit lane, the turns and scans of a cycle, answers, received DATA
frames and notices. -/

namespace Sys2Proof.Machine

open Sys2Proof

/-! ### The transmit lane -/

/-- The frames that became due in the event under way join those due: frames that name no stream first, then in
increasing stream number (R112). Two that name the same stream, or none, keep the order in which the event made them due,
an answer before a notice: the model's choice, notes/assumptions/56.md. -/
def Body.mergeDue (b : Body) : Body :=
  { b with
    lt := { b.lt with
      due := b.lt.due ++ (b.lt.fresh.filter (·.stream.isNone) ++
        (List.finRange 16).flatMap fun i => b.lt.fresh.filter (·.stream == some i))
      fresh := [] } }

/-- A frame starts on the lane. -/
def Body.startLane (l : Lane) (b : Body) : Body := { b with lt := { b.lt with lane := some l } }

/-- The queued notice of a stream is sent: its sends rise by 1 and its cycles waited becomes 0 (R126). -/
def Body.noticeSent (i : StreamId) (b : Body) : Body :=
  { b with
    lt := { b.lt with
      notices := b.lt.notices.map fun n =>
        if n.stream = i then { n with sends := n.sends + 1, waited := false, due := false } else n } }

/-- The oldest due control frame starts. -/
def Body.startDue (f : ControlFrame) (rest : List ControlFrame) (b : Body) : Body :=
  let started := { b with lt := { b.lt with due := rest, lane := some (.control f) } }
  match f with
  | .notice i _ => started.noticeSent i
  | _ => started

/-- The stream may take its scheduled turn (R115). -/
def Stream.takesTurn (st : Stream) : Bool := st.cls == .scheduled && st.dir == .outbound && st.mayRead

/-- The head of the committed or held queue. -/
def Stream.headBuffer (st : Stream) : Option (Nat × Buffer) :=
  match st.queue with
  | k :: _ => some (k, st.buffer k)
  | [] => none

/-- A turn that ends short while data waits (R116). -/
def Stream.underruns (st : Stream) (sentCount : Nat) : Bool :=
  decide (sentCount < st.perCycle) && (decide (0 < st.openPacket) || st.sends.any fun e => !e.finished)

/-- The turn position moves to the next higher stream number, and after 15 to "over" (R115). -/
def nextTurn (i : StreamId) : Turn := if h : i.val + 1 < 16 then .at ⟨i.val + 1, h⟩ 0 else .over

/-- The next scheduled frame of the turn, if the stream's turn has one (R115). -/
def Stream.turnFrame (i : StreamId) (sentCount : Nat) (st : Stream) : Option Lane :=
  if st.takesTurn ∧ sentCount < st.perCycle then
    match st.headBuffer, st.seq with
    | some (k, .committed data mark), .scheduledOut next =>
      some (.data { stream := i, cls := .scheduled, mark := mark, bit := false, counter := next,
                    slot := BitVec.ofNat 8 sentCount, length := data.length } k data)
    | _, _ => none
  else none

/-- The turn position moves until a scheduled frame starts or the turns are over (R115, R116). A stream that can no longer
take its turn when the position is at it, also one that left ACTIVE or CLOSING in the middle of its turn, is passed over
with no UNDERRUN: the model's choice, notes/assumptions/49.md. A frame longer than the budget left is sent too, and the
budget stops at 0: the model's choice, notes/assumptions/59.md. -/
def Body.runTurns : Nat → Body → Body
  | 0, b => b
  | n + 1, b =>
    match b.lt.turn with
    | some (.at i sentCount) =>
      let moved := { b with lt := { b.lt with turn := some (nextTurn i) } }
      match b.stream i with
      | some st => match st.turnFrame i sentCount with
        | some (.data h k p) =>
          { b with
            lt := { b.lt with
              turn := some (.at i (sentCount + 1)), budget := b.lt.budget - (h.length + 12)
              lane := some (.data h k p) } }
        | _ =>
          (if st.takesTurn && st.underruns sentCount then moved.raise (some i) (.scheduleMiss false)
            else moved).runTurns n
      | none => moved.runTurns n
    | _ => b

/-- A best-effort OUT stream is eligible (R117). A packet given up at its DEFER is not sent again (R11, R18;
notes/assumptions/21.md). -/
def Body.eligible (i : StreamId) (st : Stream) (b : Body) : Bool :=
  st.isBestEffortOut && !b.awaitsOpened i &&
    match st.headBuffer with
    | some (_, .committed _ _) => st.mayRead
    | some (_, .sent _ _ _ .due) =>
      st.seq.inFlight && (st.mayRead || st.state == .flushing || st.state == .halting)
    | _ => false

/-- The stream can be chosen: it is eligible, and its head fits the budget left (R118). -/
def Body.sendable (b : Body) (i : StreamId) : Bool :=
  match b.stream i with
  | some st => match st.headBuffer with
    | some (_, buf) => b.eligible i st && decide (buf.count + 12 ≤ b.lt.budget)
    | none => false
  | none => false

/-- The streams in the order of a scan: after the round-robin position, up to 15, on from 0, ending at the position
itself (R118). -/
def scanOrder (position : StreamId) : List StreamId :=
  (List.range 16).map fun n => ⟨(position.val + 1 + n) % 16, Nat.mod_lt _ (by decide)⟩

/-- The head of a best-effort OUT stream as it is sent: SENT and AWAITING(0), with the next sequence bit on its first
send and the same bit on a later one (R36, R119). -/
def Stream.sendHead (st : Stream) : Option (Stream × Nat × Bool × Bool × List Byte) :=
  match st.headBuffer, st.seq with
  | some (k, .committed data mark), .bestEffortOut next _ n =>
    some ({ st.setBuffer k (.sent data mark next .awaiting0) with seq := .bestEffortOut next true n },
      k, mark, next, data)
  | some (k, .sent data mark bit _), _ => some (st.setBuffer k (.sent data mark bit .awaiting0), k, mark, bit, data)
  | _, _ => none

/-- The scan of R118: the first stream that can be chosen sends its head. -/
def Body.scan (b : Body) : Body :=
  match (scanOrder b.lt.roundRobin).find? b.sendable with
  | some i => match b.stream i with
    | some st => match st.sendHead with
      | some (st', k, mark, bit, data) =>
        let sent := b.put i st st'
        { sent with
          lt := { sent.lt with
            budget := b.lt.budget - (data.length + 12), roundRobin := i
            lane := some (.data { stream := i, cls := .bestEffort, mark := mark, bit := bit, counter := 0, slot := 0,
                                  length := data.length } k data) } }
      | none => b
    | none => b
  | none => b

/-- The next frame starts when the lane is free: a marker, a due control frame, or with the link UP the next DATA frame
of the cycle (R112). Turns move, and end, only where a DATA frame may start: a stream whose queue is found empty while the
lane is busy, or a marker or control frame is due, keeps its turn until then. The model's choice:
notes/assumptions/53.md. -/
def Body.startFrame (env : Env) (b : Body) : Body :=
  if b.lt.lane.isSome then b
  else if b.lt.markerDue then
    { b with lt := { b.lt with markerDue := false, lane := some (.control (.cycleStart env.cycle)) } }
  else match b.lt.due with
    | f :: fs => b.startDue f fs
    | [] =>
      if env.up then
        let turned := b.runTurns 17
        if turned.lt.lane.isNone ∧ turned.lt.turn = some .over then turned.scan else turned
      else b

/-! ### Confirmation and answers -/

/-- The packet of buffer `k` is confirmed: the buffer becomes FREE and its bytes and mark are credited (R35, R36,
R58). -/
def Stream.confirm (k : Nat) (cycle : CycleNum) (st : Stream) : Stream :=
  (st.freeBuffer k).credit (st.buffer k).count (st.buffer k).mark cycle

/-- The next packet counter rises by 1, from 255 to 0 (R115). -/
def SeqState.countUp : SeqState → SeqState
  | .scheduledOut n => .scheduledOut (n + 1)
  | q => q

/-- The last byte of a scheduled DATA frame has been sent: the counter rises, and the packet is confirmed if the stream
is ACTIVE, or CLOSING with its halt cause absent (R35, R112, R115). -/
def Stream.scheduledSent (k : Nat) (cycle : CycleNum) (st : Stream) : Stream :=
  let counted := { st with seq := st.seq.countUp }
  if st.mayRead then counted.confirm k cycle else counted

/-- The SENT buffer's index and bit. -/
def Stream.sent? (st : Stream) : Option (Nat × Bool) :=
  match st.sentIndex with
  | some k => match st.buffer k with
    | .sent _ _ bit _ => some (k, bit)
    | _ => none
  | none => none

/-- An ACCEPT with the SENT buffer's bit (R121). A packet given up at an earlier DEFER counts as not delivered (R11, R18;
notes/assumptions/21.md). -/
def Stream.accepted (bit : Bool) (cycle : CycleNum) (st : Stream) : Stream :=
  match st.sent?, st.seq with
  | some (k, b), .bestEffortOut next flight _ =>
    if b = bit ∧ flight then { st.confirm k cycle with seq := .bestEffortOut (!next) false 0 } else st
  | _, _ => st

/-- Give the SENT buffer this answer condition. -/
def Buffer.setAnswer (a : AnswerCondition) : Buffer → Buffer
  | .sent d m b _ => .sent d m b a
  | b => b

/-- A DEFER with the SENT buffer's bit: DEFERRED with count 0 (R122). In FLUSHING or HALTING it is the outcome waited for:
the in-flight marker is cleared, and the packet goes with the discard that follows the reads already issued (R11, R18,
R37). -/
def Stream.deferred (bit : Bool) (st : Stream) : Stream :=
  match st.sent?, st.seq with
  | some (k, b), .bestEffortOut next flight _ =>
    if b = bit then
      { st.setBuffer k ((st.buffer k).setAnswer .deferred) with
        seq := .bestEffortOut next (flight && st.state != .flushing && st.state != .halting) 0 }
    else st
  | _, _ => st

/-- The unanswered-send count of a best-effort OUT stream. -/
def SeqState.unanswered : SeqState → Nat
  | .bestEffortOut _ _ n => n
  | _ => 0

/-- The unanswered-send count rises by 1. -/
def SeqState.missAnswer : SeqState → SeqState
  | .bestEffortOut b f n => .bestEffortOut b f (n + 1)
  | q => q

/-- The answer condition of a SENT buffer advances at a cycle start; the deadline of AWAITING(1) has passed (R120). -/
def Stream.advanceAnswer (st : Stream) : Stream :=
  match st.sentIndex with
  | some k => match st.buffer k with
    | .sent d m b .awaiting0 => st.setBuffer k (.sent d m b .awaiting1)
    | .sent d m b .awaiting1 => { st.setBuffer k (.sent d m b .due) with seq := st.seq.missAnswer }
    | .sent d m b .deferred => st.setBuffer k (.sent d m b .due)
    | _ => st
  | none => st

/-- The answer deadline of the SENT packet of a stream passes at this cycle start. -/
def Stream.deadlinePasses (st : Stream) : Bool :=
  match st.sentIndex with
  | some k => match st.buffer k with
    | .sent _ _ _ .awaiting1 => true
    | _ => false
  | none => false

/-- The cycle start for the SENT packet of stream `i` (R120): the sixteenth unanswered send halts the stream with
NO_ANSWER, or ends the wait of one HALTING, and re-synchronises it (R11, R13). -/
def Body.advanceAnswer (up : Bool) (b : Body) (i : StreamId) : Body :=
  match b.stream i with
  | some st =>
    let advanced := b.modify i Stream.advanceAnswer
    if st.deadlinePasses ∧ 16 ≤ st.seq.unanswered + 1 then
      (advanced.haltOrAbandon i .noAnswer).resynchronise up i
    else advanced
  | none => b

/-- A notice that is queued and not waiting to be sent advances at a cycle start (R126). -/
def Notice.advance (n : Notice) : Notice :=
  if n.due then n else if n.waited then { n with due := true } else { n with waited := true }

/-- A notice has gone unacknowledged through a whole cycle after its eighth send (R126). -/
def Notice.exhausted (n : Notice) : Bool := !n.due && n.waited && decide (8 ≤ n.sends)

/-- The notices of the queue advance; those that become due again are due frames (R126). -/
def Body.advanceNotices (b : Body) : Body :=
  let again := b.lt.notices.filter fun n => !n.due && n.waited
  { b with
    lt := { b.lt with
      notices := b.lt.notices.map Notice.advance
      fresh := b.lt.fresh ++ again.map fun n => .notice n.stream (noticeCode n.closed) } }

/-! ### Receiving DATA -/

/-- Whether stream `i` is open as an IN stream of this class. -/
def Stream.receivesClass (cls : StreamClass) (st : Stream) : Bool := st.dir == .inbound && st.cls == cls

/-- The RECEIVING buffer of the frame that arrives, if it was claimed, becomes FREE (R39, R110, R111). -/
def Body.undoClaim (b : Body) : Body :=
  match b.rx with
  | some r =>
    let ended := match r.claim with
      | some k => b.modify r.header.stream fun st => st.freeBuffer k
      | none => b
    { ended with rx := none }
  | none => b

/-- The header of a DATA frame has arrived and been decoded: a FREE buffer is claimed for a frame of the class and
length the stream takes (R38). -/
def Body.headerArrives (up : Bool) (h : DataHeader) (b : Body) : Body :=
  let free := b.undoClaim
  match free.stream h.stream with
  | some st =>
    if up ∧ st.receivesClass h.cls ∧ h.length ≤ st.maxLen then
      match st.freeIndex with
      | some k => { free.put h.stream st (st.setBuffer k (.receiving [])) with
          rx := some { header := h, arrived := [], claim := some k } }
      | none => { free with rx := some { header := h, arrived := [], claim := none } }
    else { free with rx := some { header := h, arrived := [], claim := none } }
  | none => { free with rx := some { header := h, arrived := [], claim := none } }

/-- A further 64 bytes of payload have arrived (R38), no more than the header announced. -/
def Body.payloadArrives (up : Bool) (bytes : List Byte) (b : Body) : Body :=
  match b.rx with
  | some r =>
    let arrived := (r.arrived ++ bytes).take r.header.length
    let counted := match r.claim with
      | some k => if up then b.modify r.header.stream fun st => st.setBuffer k (.receiving arrived) else b
      | none => b
    { counted with rx := some { r with arrived := arrived } }
  | none => b

/-- The claimed buffer becomes HELD with the frame's length, mark, value and cycle, at the tail of the held queue
(R39); a pending gap becomes its gap mark (R76). -/
def Stream.keep (k : Nat) (data : List Byte) (mark : Bool) (value : ArrivalValue) (cycle : CycleNum) (st : Stream) :
    Stream :=
  let gap := match st.seq with
    | .scheduledIn _ g _ => g
    | _ => false
  { st with
    buffers := st.buffers.set k (.held data mark value cycle gap)
    queue := st.queue ++ [k]
    seq := match st.seq with
      | .scheduledIn expected _ first => .scheduledIn expected false first
      | q => q }

/-- The expected sequence bit of a best-effort IN stream. -/
def SeqState.expects : SeqState → Bool → Bool
  | .bestEffortIn expected, bit => expected == bit
  | _, _ => false

/-- What the end of a best-effort frame decides (R124). -/
inductive Decision where
  | gone
  | defer
  | duplicate
  | keep
  deriving DecidableEq, Repr

/-- The table of R124, first row that applies. A frame whose stream was released and opened again during its arrival is
decided by the state found here, with no claim: the model's choice, notes/assumptions/58.md. -/
def Body.decide (h : DataHeader) (claim : Option Nat) (b : Body) : Decision :=
  match b.stream h.stream with
  | none => .gone
  | some st =>
    if !st.receivesClass .bestEffort then .gone
    else if st.maxLen < h.length then .gone
    else if st.state ≠ .active then .defer
    else if b.awaitsOpened h.stream then .defer
    else match claim with
      | none => .defer
      | some _ => if st.seq.expects h.bit then .keep else .duplicate

/-- The end of a best-effort DATA frame whose check passes (R124). -/
def Body.bestEffortEnds (cycle : CycleNum) (r : Reception) (data : List Byte) (b : Body) : Body :=
  let i := r.header.stream
  match b.decide r.header r.claim with
  | .gone => b.undoClaim.addDue (.gone i)
  | .defer => b.undoClaim.addDue (.defer i r.header.bit)
  | .duplicate => b.undoClaim.addDue (.accept i r.header.bit)
  | .keep => match r.claim with
    | some k =>
      { b with rx := none }.modify i (fun st =>
        { st.keep k data r.header.mark (.bit r.header.bit) cycle with seq := .bestEffortIn (!r.header.bit) })
        |>.addDue (.accept i r.header.bit)
    | none => b

/-- The sequence state after a kept scheduled frame, gap pending included (R125, row 3). -/
def SeqState.arrive (counter : Byte) : SeqState → SeqState
  | .scheduledIn expected gap first => .scheduledIn (counter + 1) (gap || (!first && counter != expected)) false
  | q => q

/-- The end of a scheduled DATA frame whose check passes (R125). Of a frame not kept, the WATCH event of the claim that is
undone comes before SCHEDULE_MISS: the model's choice, notes/assumptions/17.md. A frame whose stream was released and
opened again during its arrival is decided by the state found here, with no claim, so the new opening sees OVERRUN and a
pending gap: the model's choice, notes/assumptions/58.md. -/
def Body.scheduledEnds (cycle : CycleNum) (r : Reception) (data : List Byte) (b : Body) : Body :=
  let i := r.header.stream
  match b.stream i with
  | none => b.undoClaim
  | some st =>
    if !st.receivesClass .scheduled then b.undoClaim
    else match r.claim with
      | some k =>
        if r.header.length ≤ st.maxLen ∧ r.header.slot.toNat < st.perCycle ∧ st.state = .active then
          { b with rx := none }.put i st
            ({ st with seq := st.seq.arrive r.header.counter }.keep k data r.header.mark (.counter r.header.counter) cycle)
        else (b.undoClaim.modify i Stream.setGap).raise (some i) (.scheduleMiss true)
      | none => (b.undoClaim.modify i Stream.setGap).raise (some i) (.scheduleMiss true)

/-! ### Notices -/

/-- A NOTICE acts on the local stream (R128). -/
def Body.noticeActs (i : StreamId) (kind : Byte) (b : Body) : Body :=
  if kind = 1 then
    match b.stream i with
    | some st =>
      (if st.isBestEffortOut ∧ st.sentIndex.isSome then b.haltOrAbandon i .peerClosed else b).modify i Stream.resetSeq
    | none => b
  else if kind = 2 then b.haltOrAbandon i .peerClosed
  else b

/-- A NOTICE_ACK removes the queued notice of its stream if the kinds are the same (R129). -/
def Body.noticeAcked (i : StreamId) (kind : Byte) (b : Body) : Body :=
  if b.lt.notices.any fun n => n.stream == i && noticeCode n.closed == kind then
    let cleared := b.dropDue (ControlFrame.isNoticeOf i)
    { cleared with lt := { cleared.lt with notices := cleared.lt.notices.filter (·.stream != i) } }
  else b

end Sys2Proof.Machine
end

