-- ==== Sys2Proof/Machine/Query.lean ====
section
/-! DEFINITION. The snapshots that QUERY_STREAM and QUERY_LINK write (R172, R173; the layouts of 11.4). Fields that are
absent are reported as 0 (R183). -/

namespace Sys2Proof.Machine

open Sys2Proof

/-! ### QUERY_STREAM (R44, R64, R83, R92, R130, R165, R172) -/

/-- The gap mark of a buffer (R76). -/
def Buffer.gapMark : Buffer → Bool
  | .held _ _ _ _ gap => gap
  | .draining _ _ _ _ gap _ _ => gap
  | _ => false

/-- The arrival sequence value of a buffer that is HELD or DRAINING (2.2). -/
def Buffer.arrival : Buffer → Option ArrivalValue
  | .held _ _ value _ _ => some value
  | .draining _ _ value _ _ _ _ => some value
  | _ => none

/-- The link sequence value of a SENT buffer, or the arrival sequence bit of an IN buffer (R44). -/
def Buffer.sequenceBit (b : Buffer) : Bool :=
  match b with
  | .sent _ _ bit _ => bit
  | b => match b.arrival with
    | some (.bit bit) => bit
    | _ => false

/-- The arrival packet counter of an IN buffer (R44). -/
def Buffer.counter (b : Buffer) : Byte :=
  match b.arrival with
  | some (.counter c) => c
  | _ => 0

/-- The 4 bytes of one buffer (QUERY_STREAM result, bytes 48 to 63). -/
def Buffer.queryBytes (b : Buffer) : List Byte :=
  [BitVec.ofNat 8 (b.stateCode + flags [false, false, false, b.mark, b.gapMark, b.sequenceBit]), b.counter] ++
    le 2 b.count

/-- The bytes written of the DRAINING buffer; 0 where there is none. -/
def Stream.drainingWritten (st : Stream) : Nat :=
  match st.drainingIndex with
  | some k => match st.buffer k with
    | .draining _ _ _ _ _ written _ => written
    | _ => 0
  | none => 0

/-- The head fields, bytes 18 to 35: position, length or capacity, requested or issued, read or written, and confirmed
or the bytes written of the DRAINING buffer (R64, R83). -/
def Stream.headBytes (st : Stream) : List Byte :=
  match st.dir, st.sends, st.receives with
  | .outbound, e :: _, _ => le 2 e.position ++ le 4 e.length ++ le 4 e.requested ++ le 4 e.read ++ le 4 e.confirmed
  | .inbound, _, e :: _ =>
    le 2 e.position ++ le 4 e.capacity ++ le 4 e.issued ++ le 4 e.written ++ le 4 st.drainingWritten
  | .outbound, [], _ => le 18 0
  | .inbound, _, [] => le 14 0 ++ le 4 st.drainingWritten

/-- The head is finished (OUT). -/
def Stream.headFinished (st : Stream) : Bool :=
  match st.dir, st.sends with
  | .outbound, e :: _ => e.finished
  | _, _ => false

/-- The condition of the head of an IN stream: 0 open, 1 closed, 2 done (4.2). -/
def Stream.headCondition (st : Stream) : Nat :=
  match st.receives with
  | e :: _ => if e.isOpen then 0 else if e.isDone then 2 else 1
  | [] => 0

/-- The GAP flag of the head of an IN stream. -/
def Stream.headGap (st : Stream) : Bool :=
  match st.receives with
  | e :: _ => e.gap
  | [] => false

/-- Byte 15, the watch (R92). -/
def Stream.watchByte (st : Stream) : Byte :=
  match st.watch with
  | some w => BitVec.ofNat 8 (flags [true, w.dir == .atOrBelow, w.measure == .openPacket, w.condition])
  | none => 0

/-- The code of the answer condition of the SENT buffer; 0 where there is none. -/
def Stream.answerCode (st : Stream) : Nat :=
  match st.sentIndex with
  | some k => match st.buffer k with
    | .sent _ _ _ a => a.code
    | _ => 0
  | none => 0

/-- Bytes 44 to 46: the sequence state with the answer condition (R130). -/
def Stream.sequenceBytes (st : Stream) : List Byte :=
  match st.seq with
  | .bestEffortOut next flight n =>
    [BitVec.ofNat 8 (flags [next, flight] + 16 * st.answerCode), 0, BitVec.ofNat 8 n]
  | .bestEffortIn expected => [BitVec.ofNat 8 expected.toNat, 0, 0]
  | .scheduledOut next => [0, next, 0]
  | .scheduledIn expected gap first => [BitVec.ofNat 8 (flags [false, false, gap, first]), expected, 0]

/-- Byte 47: the notice queued for a stream, and its sends (R130). -/
def Body.noticeByte (i : StreamId) (b : Body) : Byte :=
  match b.lt.notices.find? fun n => n.stream == i with
  | some n => BitVec.ofNat 8 ((noticeCode n.closed).toNat + 16 * n.sends)
  | none => 0

/-- The place of a stream in the waiting list of its bound ring, from 0 at its head (R165). -/
def Body.waitingPlace (i : StreamId) (st : Stream) (b : Body) : Option Nat :=
  match b.completion[st.bound] with
  | some cr => cr.waiting.findIdx? (· == .stream i)
  | none => none

/-- The 64 bytes of a QUERY_STREAM snapshot (R172). A CLOSED stream reports its state and its queued notice alone. -/
def Body.streamSnapshot (i : StreamId) (b : Body) : List Byte :=
  match b.stream i with
  | none => le 47 0 ++ [b.noticeByte i] ++ le 16 0
  | some st =>
    let place := b.waitingPlace i st
    [BitVec.ofNat 8 st.state.code, BitVec.ofNat 8 ((st.cause.map HaltCause.code).getD 0),
      BitVec.ofNat 8 (st.dir.code + 4 * st.cls.code),
      BitVec.ofNat 8 (st.buffers.length + 8 * st.perCycle + 32 * st.bound.val)] ++
    le 2 st.maxLen ++
    [BitVec.ofNat 8
        (flags [st.profileChecked, st.bad.isSome, st.held.isSome, place.isSome, st.headFinished] +
          32 * st.headCondition + 128 * st.headGap.toNat),
      BitVec.ofNat 8 (place.getD 0)] ++
    le 2 st.wholeStore ++ le 2 st.openPacket ++
    [BitVec.ofNat 8 (st.sends.length + st.receives.length),
      BitVec.ofNat 8 (st.ring.fetches.length + 16 * st.ring.returned.length),
      BitVec.ofNat 8 (st.readsInFlight + st.writes.length), st.watchByte] ++
    le 2 ((st.watch.map Watch.threshold).getD 0) ++ st.headBytes ++
    le 2 st.ring.size ++ le 2 st.ring.posted ++ le 2 st.ring.taken ++ le 2 st.ring.fetchPos ++
    st.sequenceBytes ++ [b.noticeByte i] ++ fit 16 (st.buffers.flatMap Buffer.queryBytes)

/-! ### QUERY_LINK (R109, R130, R148, R165, R173) -/

/-- A time in µs reported in ms; how one that is no whole number of ms is rounded is not stated
(notes/assumptions/2.md). -/
def toMs (us : Nat) : Nat := us / 1000 + (if us % 1000 ≠ 0 ∧ Config.roundsUp us then 1 else 0)

/-- The bring-up time left, in ms; 0 where the timer is stopped (R148). -/
def State.bringUpLeft (s : State) : Nat :=
  match s.bp.bringUpEnds with
  | some t => toMs (t - s.now)
  | none => 0

/-- Byte 32: the chunk in progress with its sends, or 7 for done; 0 outside EXCHANGING (R148). -/
def BringUp.outgoingByte (bp : BringUp) : Byte :=
  match bp.outgoing with
  | some o => if o.done then 7 else BitVec.ofNat 8 (o.chunk + 16 * o.sends)
  | none => 0

/-- Byte 33: the next chunk expected, or 7 for done; 0 outside EXCHANGING (R148). -/
def BringUp.incomingByte (bp : BringUp) : Byte :=
  match bp.incoming with
  | some c => if c.done then 7 else BitVec.ofNat 8 c.next
  | none => 0

/-- The 8 bytes of a part-written ring (R165). -/
def PartRing.queryBytes (waiting : Nat) (r : PartRing) : List Byte :=
  le 2 r.put ++ le 2 r.freed ++ le 2 r.space ++ [BitVec.ofNat 8 (flags [r.phase, r.armed]), BitVec.ofNat 8 waiting]

/-- The 8 bytes of a completion ring; zeros where it is not configured. -/
def completionRingBytes : Option CompletionRing → List Byte
  | some cr => cr.ring.queryBytes cr.waiting.length
  | none => le 8 0

/-- The 128 bytes of a QUERY_LINK snapshot (R173). -/
def State.linkSnapshot (s : State) : List Byte :=
  let b := s.body
  [BitVec.ofNat 8 s.bp.link.code, BitVec.ofNat 8 ((s.bp.lastDown.map DownCause.code).getD 0),
    BitVec.ofNat 8 (s.bp.signal.toNat + 2 * (s.ce.role.map Role.code).getD 0),
    BitVec.ofNat 8 s.ce.sync.code, BitVec.ofNat 8 s.ce.coasting, BitVec.ofNat 8 s.ce.echoMiss] ++
  le 2 ((s.ce.period.map Period.us).getD 0) ++ le 2 s.ce.inForce.us ++
  bytesOf 2 s.ce.cycle ++ le 2 b.reservedSum ++ le 2 b.lt.budget ++
  [BitVec.ofNat 8 b.lt.notices.length, BitVec.ofNat 8 (freeCount b.blocks), BitVec.ofNat 8 b.table.length,
    BitVec.ofNat 8 b.events.length] ++
  le 2 s.bp.localProfile.length ++ le 2 ((s.bp.peerProfile.map List.length).getD 0) ++
  bytesOf 4 (checkValue s.bp.localProfile) ++ le 4 s.bringUpLeft ++ [s.bp.outgoingByte, s.bp.incomingByte] ++
  (match b.admin with
    | some r => le 2 r.posted ++ le 2 r.taken ++ le 2 r.fetchPos
    | none => le 6 0) ++
  le 8 0 ++ b.completion.toList.flatMap completionRingBytes ++
  (match b.event with
    | some r => r.queryBytes 0
    | none => le 8 0) ++
  le 40 0

end Sys2Proof.Machine
end

