-- ==== Sys2Proof/Machine/Cycle.lean ====
section
/-! DEFINITION. The Cycle Engine (chapter 6) with what a cycle start, reaching UP and leaving UP do to the other blocks
in the same event (R16, R106, R113, R114, R142, R147). -/

namespace Sys2Proof.Machine

open Sys2Proof

/-- Change the body alone. -/
def State.onBody (f : Body → Body) (s : State) : State := { s with body := f s.body }

/-- The link is UP. -/
def State.isUp (s : State) : Bool := s.bp.link == .up

/-- What the actions of the streams and of the lane read of the rest of the part. -/
def State.env (s : State) : Env :=
  { running := s.fn == .running, serving := s.fn == .running || s.fn == .stopping, up := s.isUp, cycle := s.ce.cycle }

/-! ### Profile checks (R6) -/

def Direction.opposite : Direction → Direction
  | .outbound => .inbound
  | .inbound => .outbound

/-- A profile has an entry for the stream number with this direction and the stream's class whose limits the stream
keeps (R6). -/
def profileAllows (p : List Byte) (i : StreamId) (dir : Direction) (st : Stream) : Bool :=
  (profileEntries p).any fun e =>
    e.stream == i.val && e.dir.toNat == dir.code && e.cls.toNat == st.cls.code && decide (st.maxLen ≤ e.maxLen) &&
      (st.cls == .bestEffort || decide (st.perCycle ≤ e.maxPerCycle))

/-- The local-profile check (R6). -/
def localAllows (p : List Byte) (i : StreamId) (st : Stream) : Bool := profileAllows p i st.dir st

/-- The peer-profile check; it fails when no peer profile is held (R6). -/
def peerAllows (p : Option (List Byte)) (i : StreamId) (st : Stream) : Bool :=
  match p with
  | some bytes => profileAllows bytes i st.dir.opposite st
  | none => false

/-- A SCHEDULED OUT stream. -/
def Stream.isScheduledOut (st : Stream) : Bool := st.cls == .scheduled && st.dir == .outbound

/-! ### Leaving UP -/

/-- The engine stops (R106). -/
def CycleEngine.stop (cause : DownCause) (e : CycleEngine) : CycleEngine :=
  { e with
    echoSeen := none, expected := none, periodEnds := none
    sync := if cause = .syncLost then e.sync else .unlocked
    coasting := if cause = .syncLost then e.coasting else 0
    echoMiss := if cause = .peerSilent then e.echoMiss else 0 }

/-- Link Transfer when the link leaves UP: the frame under way and the frames due are gone, the budget is 0 and the
notice queue empty (R112, R113). -/
def LinkTransfer.stop (lt : LinkTransfer) : LinkTransfer :=
  { lt with budget := 0, turn := none, notices := [], markerDue := false, due := [], fresh := [], lane := none }

/-- Stream `i` when the link leaves UP: one that can halt halts with LINK_LOST (R9, R15). A SENT packet, awaited or
answered DEFER, is abandoned whatever the stream's state, so that no answer condition remains (R11, R37, R113, R147), and
the profile-check flag is cleared (R15). -/
def Body.loseLinkOne (i : StreamId) (b : Body) : Body :=
  (b.halt i .linkLost).modify i fun st => { st.abandon with profileChecked := false }

/-- The streams in increasing number when the link leaves UP, each after `first`: what the same event has done to it
before (R9: the halts of one event go in increasing stream number). -/
def Body.loseLinkAfter (first : Body → StreamId → Body) (b : Body) : Body :=
  (List.finRange 16).foldl (fun b i => (first b i).loseLinkOne i) b

/-- Every open stream loses the link (R11, R15). -/
def Body.loseLink (b : Body) : Body := b.loseLinkAfter fun b _ => b

/-- The link leaves UP (R147); `streams` is what it does to the streams. LINK_STATE comes before the events of the
streams: the model's choice, notes/assumptions/17.md. -/
def State.leaveUpWith (streams : Body → Body) (cause : DownCause) (s : State) : State :=
  { s with
    bp := { s.bp with link := .down, lastDown := some cause, peerProfile := none }
    ce := s.ce.stop cause
    body := { streams (s.body.raise none (.linkState .down (some cause))) with lt := s.body.lt.stop } }

/-- The link leaves UP, and every open stream loses it (R15, R147). -/
def State.leaveUp (cause : DownCause) (s : State) : State := s.leaveUpWith Body.loseLink cause

/-! ### The start of a cycle -/

/-- Link Transfer at a cycle start (R114): the budget and the turns. A turn that is under way and short is cut off with no
UNDERRUN, like the turns not yet given: the model's choice, notes/assumptions/50.md. -/
def LinkTransfer.newCycle (leader : Bool) (capacity : Nat) (lt : LinkTransfer) : LinkTransfer :=
  { lt with budget := capacity, turn := some (.at 0 0), markerDue := leader }

/-- A cycle with this number starts (R95, R114): every answer condition and every notice advances (R120, R126). A notice
that has gone unacknowledged after its eighth send takes the link DOWN with PEER_SILENT; the halts of that event, of
either cause, go in increasing stream number (R9). -/
def State.startCycle (n : CycleNum) (s : State) : State :=
  let begun : State := { s with
    ce := { s.ce with cycle := n }
    body := { s.body with lt := s.body.lt.newCycle (s.ce.role == some .leader) s.ce.inForce.capacity } }
  let answered := (List.finRange 16).foldl (Body.advanceAnswer true) begun.body
  if answered.lt.notices.any Notice.exhausted then
    begun.leaveUpWith (Body.loseLinkAfter (Body.advanceAnswer true)) .peerSilent
  else { begun with body := answered.advanceNotices }

/-! ### Reaching UP -/

/-- One stream of the examination of R16, with the sum of the reservations of those that passed. -/
def Body.examineOne (peer : List Byte) (reservable : Nat) (acc : Body × Nat) (i : StreamId) : Body × Nat :=
  match acc.1.stream i with
  | some st =>
    let passes := fun (sum : Nat) => (acc.1.modify i fun st => { st with profileChecked := true }, sum)
    if st.mayHalt then
      if peerAllows (some peer) i st then
        if st.isScheduledOut then
          if acc.2 + st.reservation ≤ reservable then passes (acc.2 + st.reservation)
          else (acc.1.halt i .profileMismatch, acc.2)
        else passes acc.2
      else (acc.1.halt i .profileMismatch, acc.2)
    else acc
  | none => acc

/-- The examination of the open streams, in increasing stream number (R16). -/
def Body.examine (peer : List Byte) (reservable : Nat) (b : Body) : Body :=
  ((List.finRange 16).foldl (Body.examineOne peer reservable) (b, 0)).1

/-- The engine in the event in which the link reaches UP (R96, R100, R107). -/
def CycleEngine.reachUp (now : Nat) (period : Period) (e : CycleEngine) : CycleEngine :=
  let leader := e.role == some .leader
  { e with
    inForce := period, sync := .locked, coasting := 0
    echoMiss := if leader then 0 else e.echoMiss
    echoSeen := if leader then some false else none
    periodEnds := if leader then some (now + period.us) else none
    expected := if leader then none else some (now + period.us)
    firstMarker := if leader then e.firstMarker else false }

/-- The Bring-up and Profile Unit in that event (R133, R142). -/
def BringUp.reachUp (bp : BringUp) : BringUp :=
  { bp with
    link := .up, pendingLinkUp := none, bringUpEnds := none, helloEnds := none, peerHello := none, outgoing := none
    incoming := none, peerProfile := some ((bp.incoming.map Incoming.bytes).getD []) }

/-- The request of the pending LINK_UP completes. -/
def Body.completePending (pending : Option Nat) (status : Status) (b : Body) : Body :=
  match pending with
  | some id => b.completeId id status 0
  | none => b

/-- The link reaches UP and its first cycle, of number `n`, starts (R142). -/
def State.reachUp (n : CycleNum) (s : State) : State :=
  let period := s.ce.period.getD s.ce.inForce
  let peer := (s.bp.incoming.map Incoming.bytes).getD []
  let called := ((s.body.dropDue fun f => f.isHello || f.isChunk).raise none (.linkState .up none)).modifyAll
    Stream.resetSeq
  let cleared : Body := { called with lt := { called.lt with roundRobin := 15, notices := [] } }
  { s with
    bp := s.bp.reachUp, ce := s.ce.reachUp s.now period
    body := (cleared.examine peer period.reservable).completePending s.bp.pendingLinkUp .ok }.startCycle n

/-! ### Markers, echoes and timers -/

/-- The follower is re-timed by a marker that arrives now (R101). -/
def CycleEngine.retime (now : Nat) (e : CycleEngine) : CycleEngine :=
  { e with sync := .locked, coasting := 0, expected := some (now + e.inForce.us) }

/-- A valid marker of number `m` finds the link UP in the FOLLOWER role (R101, R104). CYCLE_SLIP is raised before what the
cycle's start raises: the model's choice, notes/assumptions/17.md. -/
def State.markerInUp (m : CycleNum) (s : State) : State :=
  let f := s.ce.cycle
  let retimed := { s with ce := s.ce.retime s.now, body := s.body.addDue (.cycleEcho m) }
  if m = f + 1 then retimed.startCycle m
  else if s.ce.sync = .coasting ∧ m = f then retimed
  else (retimed.onBody (Body.raise none (.cycleSlip f m))).startCycle m

/-- A CYCLE_START arrives (R98, R99, R100, R101, R141). -/
def State.markerArrives (m : CycleNum) (s : State) : State :=
  if s.ce.role = some .follower then
    match s.bp.link with
    | .down => s
    | .calling => s
    | .exchanging =>
      if s.ce.firstMarker ∧ (s.bp.incoming.map Incoming.done).getD false then
        (s.onBody (Body.addDue (.cycleEcho m))).reachUp m
      else s
    | .up => if s.ce.firstMarker then s else s.markerInUp m
  else s

/-- A CYCLE_ECHO arrives (R98, R99). -/
def State.echoArrives (m : CycleNum) (s : State) : State :=
  if s.ce.role = some .leader ∧ s.bp.link = .up ∧ m = s.ce.cycle then
    { s with ce := { s.ce with echoSeen := some true } }
  else s

/-- The leader's period timer expires (R97). An expiry is void, here and of every timer, unless the timer runs and its
time has come (notes/assumptions/7.md). -/
def State.periodExpires (s : State) : State :=
  match s.ce.periodEnds with
  | some t =>
    if t ≤ s.now ∧ s.ce.role = some .leader ∧ s.bp.link = .up then
      let miss := if s.ce.echoSeen = some true then 0 else s.ce.echoMiss + 1
      let judged := { s with ce := { s.ce with echoMiss := miss, periodEnds := some (t + s.ce.inForce.us) } }
      if 16 ≤ miss then judged.leaveUp .peerSilent
      else { judged with ce := { judged.ce with echoSeen := some false } }.startCycle (s.ce.cycle + 1)
    else s
  | none => s

/-- The follower's deadline: the expected marker time plus the grace (6.1). -/
def CycleEngine.deadline (e : CycleEngine) : Option Nat := e.expected.map fun t => t + e.inForce.grace

/-- The follower's deadline passes without a marker (R102, R103). A marker that is taken first moves the deadline on, and
no cycle is synthesized (R102). -/
def State.deadlinePasses (s : State) : State :=
  match s.ce.expected with
  | some t =>
    if t + s.ce.inForce.grace ≤ s.now ∧ s.ce.role = some .follower ∧ s.bp.link = .up then
      if s.ce.sync = .coasting ∧ 7 ≤ s.ce.coasting then
        { s with ce := { s.ce with sync := .lost } }.leaveUp .syncLost
      else
        { s with
          ce := { s.ce with
            sync := .coasting, coasting := s.ce.coasting + 1
            expected := some (t + s.ce.inForce.us) } }.startCycle (s.ce.cycle + 1)
    else s
  | none => s

end Sys2Proof.Machine
end

