-- ==== Sys2Proof/Machine/BringUp.lean ====
section
/-! DEFINITION. The Bring-up and Profile Unit (chapter 8): calling, the profile exchange, failure of a bring-up, and
taking the link down. -/

namespace Sys2Proof.Machine

open Sys2Proof

/-! ### Going DOWN -/

/-- The link goes DOWN from CALLING or EXCHANGING (R143): the timers stop, the exchanges are gone with the frames they
have due, and the pending LINK_UP completes. -/
def State.bringUpFails (cause : DownCause) (status : Status) (s : State) : State :=
  { s with
    bp := { s.bp with
      link := .down, lastDown := some cause, pendingLinkUp := none, bringUpEnds := none, helloEnds := none
      peerHello := none, outgoing := none, incoming := none }
    body := ((s.body.dropDue fun f => !f.isFarewell).raise none (.linkState .down (some cause))).completePending
      s.bp.pendingLinkUp status }

/-- The link goes DOWN from whatever state it is in, if it is not DOWN already (R143, R147). -/
def State.takeDown (cause : DownCause) (status : Status) (s : State) : State :=
  match s.bp.link with
  | .down => s
  | .calling => s.bringUpFails cause status
  | .exchanging => s.bringUpFails cause status
  | .up => s.leaveUp cause

/-- The link is taken down by LINK_DOWN or STOP (R144): from UP a FAREWELL becomes due. -/
def State.takeDownHere (status : Status) (s : State) : State :=
  let down := s.takeDown .requested status
  if s.isUp then down.onBody (Body.addDue .farewell) else down

/-! ### Calling -/

/-- The HELLO the part sends (R136). -/
def State.helloFrame (s : State) : ControlFrame :=
  .hello (BitVec.ofNat 8 ((s.ce.role.map Role.code).getD 0)) (BitVec.ofNat 16 ((s.ce.period.map Period.us).getD 0))
    (BitVec.ofNat 16 s.bp.localProfile.length) (checkValue s.bp.localProfile)

/-- A HELLO becomes due; one that is due already is not sent twice (R137). -/
def State.helloDue (s : State) : State :=
  if (s.body.lt.due ++ s.body.lt.fresh).any ControlFrame.isHello then s else s.onBody (Body.addDue s.helloFrame)

/-- LINK_UP is accepted for the entry `id` (R94, R136). -/
def State.callPeer (id : Nat) (role : Role) (period : Period) (timeout : Nat) (s : State) : State :=
  let called := { s with
    ce := { s.ce with
      role := some role, period := some period, sync := .unlocked, coasting := 0, echoMiss := 0
      firstMarker := role == Role.follower }
    bp := { s.bp with
      link := .calling, pendingLinkUp := some id, bringUpEnds := some (s.now + 1000 * timeout)
      helloEnds := some (s.now + 1000) } }
  called.helloDue.onBody (Body.raise none (.linkState .calling none))

/-- The HELLO timer expires in CALLING or EXCHANGING (R137). -/
def State.helloExpires (s : State) : State :=
  match s.bp.helloEnds with
  | some t => if t ≤ s.now then { s with bp := { s.bp with helloEnds := some (s.now + 1000) } }.helloDue else s
  | none => s

/-- The bring-up timer runs out (R143). -/
def State.bringUpExpires (s : State) : State :=
  match s.bp.bringUpEnds with
  | some t => if t ≤ s.now then s.bringUpFails .timeout .timeout else s
  | none => s

/-! ### The profile exchange -/

/-- A profile of this length goes in ⌈length / 64⌉ chunks (R139). -/
def chunkCount (length : Nat) : Nat := (length + 63) / 64

/-- The length of chunk `k` of a profile of this length (R139). -/
def chunkLength (length k : Nat) : Nat := if k + 1 < chunkCount length then 64 else length - 64 * k

/-- Chunk `k` of the local profile becomes due, for the `sends`-th time, and the answer timer starts (R139). -/
def State.sendChunk (k sends : Nat) (s : State) : State :=
  { s with
    bp := { s.bp with outgoing := some { chunk := k, sends := sends, timer := some (s.now + 1000), done := false } }
    body := s.body.addDue (.profileChunk (BitVec.ofNat 8 k) ((s.bp.localProfile.drop (64 * k)).take 64)) }

/-- Both exchanges begin, or begin again, with this peer HELLO (R138). -/
def State.beginExchange (h : PeerHello) (s : State) : State :=
  let begun := { s with
    bp := { s.bp with
      link := .exchanging, peerHello := some h, incoming := some { next := 0, bytes := [], done := false }
      helloEnds := match s.bp.helloEnds with
        | some t => some t
        | none => some (s.now + 1000) }
    body := s.body.dropDue ControlFrame.isChunk }
  let sent := begun.sendChunk 0 1
  if s.bp.link = .calling then sent.onBody (Body.raise none (.linkState .exchanging none)) else sent

/-- The checks of a HELLO in CALLING, or of one that has changed in EXCHANGING (R138). -/
def State.helloChecked (h : PeerHello) (s : State) : State :=
  if s.ce.role.map Role.code = some h.role.toNat then s.bringUpFails .roleConflict .roleConflict
  else if s.ce.period.map Period.us ≠ some h.period.toNat then s.bringUpFails .periodMismatch .periodMismatch
  else if h.length.toNat < 8 ∨ 256 < h.length.toNat then s.bringUpFails .profileFailed .profileFailed
  else s.beginExchange h

/-- A HELLO arrives (R138). -/
def State.helloArrives (h : PeerHello) (s : State) : State :=
  match s.bp.link with
  | .down => s
  | .calling => s.helloChecked h
  | .exchanging => if s.bp.peerHello = some h then s else s.helloChecked h
  | .up => s.leaveUp .peerDown

/-- The HELLO timer stops with the first PROFILE_CHUNK or PROFILE_ACK in EXCHANGING, and no further HELLO is sent
(R137). -/
def State.stopHello (s : State) : State :=
  { s with bp := { s.bp with helloEnds := none }, body := s.body.dropDue ControlFrame.isHello }

/-- Both exchanges are done in the LEADER role: the link reaches UP (R141). -/
def State.exchangeDone (s : State) : State :=
  if s.ce.role = some .leader ∧ (s.bp.outgoing.map Outgoing.done).getD false ∧
      (s.bp.incoming.map Incoming.done).getD false then
    s.reachUp 0
  else s

/-- A PROFILE_ACK of the chunk in progress (R139). -/
def State.chunkAcked (o : Outgoing) (s : State) : State :=
  if o.chunk + 1 < chunkCount s.bp.localProfile.length then s.sendChunk (o.chunk + 1) 1
  else { s with bp := { s.bp with outgoing := some { o with timer := none, done := true } } }.exchangeDone

/-- A PROFILE_ACK arrives (R139). -/
def State.ackArrives (number : Byte) (s : State) : State :=
  if s.bp.link = .exchanging then
    match s.bp.outgoing with
    | some o => if !o.done ∧ number.toNat = o.chunk then s.stopHello.chunkAcked o else s.stopHello
    | none => s.stopHello
  else s

/-- The answer timer expires (R139). An acknowledgement that is taken first stops the timer, or starts it anew for the
next chunk, and the expiry is void. -/
def State.answerExpires (s : State) : State :=
  match s.bp.outgoing with
  | some o => match o.timer with
    | some t =>
      if t ≤ s.now then
        if o.sends < 8 then s.sendChunk o.chunk (o.sends + 1) else s.bringUpFails .profileFailed .profileFailed
      else s
    | none => s
  | none => s

/-- The last chunk has been stored: the bytes are checked, and the incoming exchange is done (R140). -/
def State.lastChunk (h : PeerHello) (number : Byte) (c : Incoming) (s : State) : State :=
  if checkValue c.bytes = h.check ∧ validProfile h.length.toNat c.bytes then
    ({ s with bp := { s.bp with incoming := some { c with done := true } } }.onBody
      (Body.addDue (.profileAck number))).exchangeDone
  else s.bringUpFails .profileFailed .profileFailed

/-- A PROFILE_CHUNK in EXCHANGING, against the peer HELLO and the incoming exchange (R140). -/
def State.chunkMeasured (h : PeerHello) (c : Incoming) (number : Byte) (bytes : List Byte) (s : State) : State :=
  let k := number.toNat
  let count := chunkCount h.length.toNat
  if k < c.next then s.onBody (Body.addDue (.profileAck number))
  else if c.next < k ∨ count ≤ k ∨ bytes.length ≠ chunkLength h.length.toNat k then
    s.bringUpFails .profileFailed .profileFailed
  else
    let stored : Incoming := { c with next := k + 1, bytes := c.bytes ++ bytes }
    if k + 1 = count then s.lastChunk h number stored
    else { s with bp := { s.bp with incoming := some stored } }.onBody (Body.addDue (.profileAck number))

/-- A PROFILE_CHUNK arrives (R140). -/
def State.chunkArrives (number : Byte) (bytes : List Byte) (s : State) : State :=
  match s.bp.link with
  | .down => s
  | .calling => s
  | .exchanging => match s.bp.peerHello, s.bp.incoming with
    | some h, some c => s.stopHello.chunkMeasured h c number bytes
    | _, _ => s.stopHello
  | .up => s.onBody (Body.addDue (.profileAck number))

/-- A FAREWELL arrives (R145). -/
def State.farewellArrives (s : State) : State :=
  match s.bp.link with
  | .down => s
  | .calling => s
  | .exchanging => s.bringUpFails .peerDown .aborted
  | .up => s.leaveUp .peerDown

/-! ### The line signal (R146) -/

/-- The input falls: a loss of signal takes the link DOWN. -/
def State.signalLost (s : State) : State :=
  let fallen := { s with lsig := false, bp := { s.bp with signal := false } }
  if s.bp.signal then fallen.takeDown .noSignal .aborted else fallen

/-- The input rises: only the signal field changes. -/
def State.signalRises (s : State) : State := { s with lsig := true, bp := { s.bp with signal := true } }

end Sys2Proof.Machine
end

