-- ==== Sys2Proof/Machine/Function.lean ====
section
/-! DEFINITION. The function states (chapter 11): resets, START, STOP, faults, and how an event settles. -/

namespace Sys2Proof.Machine

open Sys2Proof

/-! ### Resets (R178) -/

/-- RESET: every block takes its reset value; CB_ADDR_LO, CB_ADDR_HI, the timebase, the input and the waiting commands
stay (R178). -/
def State.resetBlocks (s : State) : State :=
  { s with
    fn := .off, fault := none, heldStop := false, bp := BringUp.reset s.lsig, ce := CycleEngine.reset
    body := Body.reset }

/-- Power-on reset: as RESET, and both halves of the control block address read 0 (R177, R178). -/
def State.powerOn (s : State) : State := { s.resetBlocks with cbLo := 0, cbHi := 0, now := 0 }

/-! ### Faults (R182) -/

/-- A fault: the state stands as it was, a held STOP is dropped and the frame under way is cut (R182). -/
def State.enterFault (code : FaultCode) (s : State) : State :=
  { s with
    fn := .faulted, fault := some code, heldStop := false
    body := { s.body with lt := { s.body.lt with lane := none } } }

/-! ### STOP (R180) -/

/-- The stream becomes ABORTING and abandons its SENT packet (R24, R180). -/
def Stream.beginAbort (st : Stream) : Stream :=
  { st.abandon with state := .aborting, stage := .waiting, request := none }

/-- Every open stream that is not ABORTING enters ABORTING (R180). -/
def Body.abortAll (b : Body) : Body :=
  b.modifyAll fun st => if st.state = .aborting then st else st.beginAbort

/-- The admin records returned and not handed on are discarded (R157, R180), at once: the model's choice,
notes/assumptions/57.md. -/
def Body.dropRequests (b : Body) : Body := { b with admin := b.admin.map HostRing.discard }

/-- STOP is applied in RUNNING (R180): the requests with no memory transfer in flight complete ABORTED. The WATCH events
of the SENT packets that the streams abandon are raised before LINK_STATE: the model's choice,
notes/assumptions/17.md. -/
def State.applyStop (s : State) : State :=
  ({ s with fn := .stopping, body := s.body.abortAll }.takeDownHere .aborted).onBody fun b =>
    (b.completeIf (fun e => e.work == Work.none) .aborted 0).dropRequests

/-- A STOP command (R179, R180). -/
def State.stopCommand (s : State) : State :=
  match s.fn with
  | .off => s
  | .starting => { s with heldStop := true }
  | .running => s.applyStop
  | .stopping => s
  | .faulted => s

/-! ### START (R150, R151, R179) -/

/-- The control block address. -/
def State.controlBlockAddress (s : State) : Addr := s.cbHi ++ s.cbLo

/-- A START command (R150, R179). -/
def State.startCommand (s : State) : State :=
  match s.fn with
  | .off => if aligned64 s.controlBlockAddress then { s with fn := .starting } else s.enterFault .badControlBlock
  | .starting => s
  | .running => s
  | .stopping => s
  | .faulted => s

/-- The rings take what the control block gives them (R151). -/
def Body.configure (c : ControlBlock) (b : Body) : Body :=
  { b with
    admin := some (HostRing.fresh c.adminBase c.adminSize)
    completion := Vector.ofFn fun (k : Fin 4) =>
      if k.val < c.ringCount then
        some
          { ring := PartRing.fresh (c.bases.getD k 0) (c.sizes.getD k 0) (c.intAddrs.getD k 0) (c.intValues.getD k 0)
            waiting := [] }
      else none
    event := some (PartRing.fresh c.eventBase c.eventSize c.eventIntAddr c.eventIntValue)
    nextId := 0 }

/-- The control block read ends (R150, R179): a valid block starts the part, and a held STOP is applied. -/
def State.controlBlockRead (result : Option (BitVec 1024)) (s : State) : State :=
  if s.fn = .starting then
    match result with
    | some bits =>
      let c := ControlBlock.read bits
      if c.valid then
        let started := { s with fn := .running, heldStop := false, body := s.body.configure c }
        if s.heldStop then started.applyStop else started
      else s.enterFault .badControlBlock
    | none => s.enterFault .badControlBlock
  else s

/-! ### The end of a stop (R181) -/

/-- A FAREWELL is due or under way. -/
def LinkTransfer.hasFarewell (lt : LinkTransfer) : Bool :=
  (lt.due ++ lt.fresh).any ControlFrame.isFarewell ||
    match lt.lane with
    | some (.control f) => f.isFarewell
    | _ => false

/-- What a stop waits for has come to hold (R181). -/
def Body.stopDone (b : Body) : Bool :=
  b.streams.toList.all Option.isNone && b.table.isEmpty && !b.lt.hasFarewell && b.ringWrites.isEmpty &&
    match b.admin with
    | some r => r.fetches.isEmpty
    | none => true

/-- The rings become unconfigured, the pending events are discarded and the lane falls silent (R149, R175, R181). -/
def Body.unconfigure (b : Body) : Body :=
  { b with
    admin := none, completion := Vector.replicate 4 none, event := none, events := []
    lt := { b.lt with due := [], fresh := [], lane := none } }

/-- The stop ends (R181). -/
def State.stopEnds (s : State) : State := { s with fn := .off, body := s.body.unconfigure }

/-! ### How an event settles -/

/-- The completions formed in the event under way go to their rings (R160, R161). -/
def Body.postCompletions (b : Body) : Body := b.joinAll.issueAllCompletions

/-- What the blocks do in the event once its own effect is there: the streams' internal actions, the completions, the
next frame on a free lane, the events, and the admin fetches. -/
def Body.settle (env : Env) (b : Body) : Body :=
  let moved := (b.runStreams env).postCompletions.mergeDue.startFrame env
  (moved.issueEvents moved.events.length).fetchAdmin env 8

/-- The event settles (R181 for the end of a stop); outside RUNNING and STOPPING nothing follows. -/
def State.settle (s : State) : State :=
  if s.fn = .running then s.onBody (Body.settle s.env)
  else if s.fn = .stopping then
    let settled := s.onBody (Body.settle s.env)
    if settled.body.stopDone then settled.stopEnds else settled
  else s

/-- An event of the part: its own effect, and then what follows from it. In FAULTED nothing is acted on (R182). -/
def State.event (effect : State → State) (s : State) : State :=
  if s.fn = .faulted then s else (effect s).settle

end Sys2Proof.Machine
end

