-- ==== Sys2Proof/Machine/Admin.lean ====
section
/-! DEFINITION. The Admin Processor (chapter 10) and the requests: admission, the checks of each request and what it
does when it is accepted, and the ends of its memory transfers. -/

namespace Sys2Proof.Machine

open Sys2Proof

/-! ### Entries -/

/-- The request of an entry completes with this status and result. -/
def State.finish (id : Nat) (status : Status) (result : Nat) (s : State) : State :=
  s.onBody (Body.completeId id status result)

/-- The request of an entry waits for this memory transfer. -/
def Body.setWork (id : Nat) (w : Work) (b : Body) : Body :=
  { b with table := b.table.map fun e => if e.id = id then { e with work := w } else e }

/-! ### Admission (R168, R170, R171) -/

/-- The stream claim of a stream can be taken by a request of this code (R170). -/
def claimFree (i : StreamId) (code : Byte) (table : List Entry) : Bool :=
  match table.filter fun e => e.claim && e.stream == some i with
  | [] => true
  | [e] => code == 3 && (e.code == 2 || e.code == 4)
  | _ => false

/-- The link admission (R171): no other link request is in the table, but a LINK_DOWN may find a LINK_UP. One that finds
another LINK_DOWN as well is refused: the model's choice, notes/assumptions/54.md. -/
def linkFree (code : Byte) (table : List Entry) : Bool :=
  table.all fun e => !isLinkCode e.code || (code == 9 && e.code == 8)

/-- The first refusal of R168 that applies to a record. -/
def admissionRefusal (r : AdminRecord) (table : List Entry) : Option Status :=
  if !r.wellFormed then some .badRequest
  else if isStreamCode r.code then
    match streamOf r.field with
    | none => some .badStream
    | some i => if isClaimCode r.code && !claimFree i r.code table then some .streamBusy else none
  else if isLinkCode r.code && !linkFree r.code table then some .wrongState
  else none

/-! ### OPEN_STREAM (R4 to R8) -/

/-- The completion rings configured. -/
def Body.ringCount (b : Body) : Nat := b.completion.toList.countP Option.isSome

/-- The parameters are in range (R4). -/
def openInRange (ringCount : Nat) (p : OpenParams) : Bool :=
  (p.dir == 1 || p.dir == 2) && p.packetLength.toNat % 4 == 0 && decide (4 ≤ p.packetLength.toNat) &&
    decide (p.packetLength.toNat ≤ 1024) && decide (2 ≤ p.bufferCount.toNat) && decide (p.bufferCount.toNat ≤ 4) &&
    ((p.cls == 1 && decide (1 ≤ p.perCycle.toNat) && decide (p.perCycle.toNat ≤ 3)) ||
      (p.cls == 2 && p.perCycle == 0)) &&
    aligned64 p.base && validSize p.size.toNat && decide (p.ring.toNat < ringCount)

/-- The context of a stream as OPEN_STREAM leaves it (R8). -/
def Stream.opened (up : Bool) (p : OpenParams) : Stream :=
  let dir := (Direction.ofCode p.dir).getD .outbound
  let cls := (StreamClass.ofCode p.cls).getD .bestEffort
  { state := .active, dir := dir, cls := cls, maxLen := p.packetLength.toNat, perCycle := p.perCycle.toNat
    bound := Fin.ofNat 4 p.ring.toNat, cause := none, seq := .initial dir cls, held := none, profileChecked := up
    buffers := List.replicate p.bufferCount.toNat .free, queue := [], sends := [], receives := [], bad := none
    failed := none, reads := [], writes := [], writeFailed := false, watch := none
    ring := HostRing.fresh p.base p.size.toNat, request := none, stage := .idle, discarded := 0 }

/-- A reservation fits (R7). -/
def State.reservationFits (st : Stream) (s : State) : Bool :=
  decide (s.body.reservedSum + st.reservation ≤ s.ce.inForce.reservable)

/-- The first refusal of R5 that applies. -/
def State.openRefusal (i : StreamId) (p : OpenParams) (s : State) : Option Status :=
  let st := Stream.opened s.isUp p
  if (s.body.stream i).isSome then some .wrongState
  else if !openInRange s.body.ringCount p then some .badRequest
  else if !localAllows s.bp.localProfile i st then some .notInProfile
  else if s.isUp && !peerAllows s.bp.peerProfile i st then some .profileMismatch
  else if st.isScheduledOut && !s.reservationFits st then some .noBandwidth
  else if freeCount s.body.blocks < blocksNeeded st.maxLen st.buffers.length then some .noStore
  else none

/-- The blocks are allocated, the context is filled, and with the link UP a NOTICE(OPENED) is placed (R8, R28). -/
def Body.openAt (up : Bool) (i : StreamId) (st : Stream) (b : Body) : Body :=
  let opened := { b with
    blocks := allocate i st.maxLen st.buffers.length b.blocks, streams := b.streams.set i (some st) }
  if up then opened.placeNotice i false else opened

/-- OPEN_STREAM is carried out (R5, R8). -/
def State.openRequest (id : Nat) (i : StreamId) (p : OpenParams) (s : State) : State :=
  match s.openRefusal i p with
  | some status => s.finish id status 0
  | none => (s.onBody (Body.openAt s.isUp i (Stream.opened s.isUp p))).finish id .ok 0

/-! ### CLOSE_STREAM, ABORT_STREAM, FLUSH_STREAM, RESUME_STREAM -/

/-- A graceful close begins (R21, R22). -/
def Stream.beginClose (st : Stream) : Stream :=
  { st with state := .closing, stage := .waiting, request := some .close, discarded := 0 }

/-- CLOSE_STREAM is carried out (R21). -/
def State.closeRequest (id : Nat) (i : StreamId) (s : State) : State :=
  match s.body.stream i with
  | some st =>
    if st.state = .active ∨ st.state = .halted then s.onBody (Body.put i st st.beginClose)
    else s.finish id .wrongState 0
  | none => s.finish id .wrongState 0

/-- ABORT_STREAM is carried out: it overtakes the FLUSH_STREAM or CLOSE_STREAM in flight (R24, R25). -/
def State.abortRequest (id : Nat) (i : StreamId) (s : State) : State :=
  match s.body.stream i with
  | some st =>
    s.onBody fun b => ((b.put i st st.beginAbort).completeFor i 2 .overtaken 0).completeFor i 4 .overtaken 0
  | none => s.finish id .wrongState 0

/-- A flush begins (R18, R19): the HELD packets of an IN stream go at once. -/
def Stream.beginFlush (st : Stream) : Stream :=
  let flushing := { st with
    state := .flushing, stage := .waiting, request := some .flush, discarded := 0 }
  match st.dir with
  | .outbound => flushing
  | .inbound => flushing.flushDiscard Buffer.isHeld

/-- FLUSH_STREAM is carried out (R18, R19). -/
def State.flushRequest (id : Nat) (i : StreamId) (s : State) : State :=
  match s.body.stream i with
  | some st =>
    if st.state = .active ∨ st.state = .halted then s.onBody (Body.put i st st.beginFlush)
    else s.finish id .wrongState 0
  | none => s.finish id .wrongState 0

/-- The first refusal of R17 that applies. -/
def State.resumeRefusal (i : StreamId) (s : State) : Option Status :=
  match s.body.stream i with
  | some st =>
    if st.state ≠ .halted then some .wrongState
    else if !s.isUp then some .linkNotUp
    else if !peerAllows s.bp.peerProfile i st then some .profileMismatch
    else if st.isScheduledOut && !s.reservationFits st then some .noBandwidth
    else none
  | none => some .wrongState

/-- A resumed stream (R17). -/
def Stream.resumed (st : Stream) : Stream :=
  { st with state := .active, cause := none, profileChecked := true, stage := .idle }

/-- RESUME_STREAM is carried out (R17). -/
def State.resumeRequest (id : Nat) (i : StreamId) (s : State) : State :=
  match s.resumeRefusal i with
  | some status => s.finish id status 0
  | none => (s.onBody (Body.modify i Stream.resumed)).finish id .ok 0

/-! ### SET_WATCH (R85 to R88) -/

/-- The watch a SET_WATCH with mode ON asks for, evaluated now, or nothing where checks 3 and 4 of R85 refuse it. -/
def Stream.watchAsked (dir measure : Byte) (threshold : Word) (st : Stream) : Option Watch :=
  match WatchDirection.ofCode dir, Measure.ofCode measure with
  | some d, some m =>
    if threshold.toNat ≤ 49152 ∧ !(m == .openPacket && st.dir == .inbound) then
      some { threshold := threshold.toNat, dir := d, measure := m,
             condition := watchCondition d threshold.toNat (st.measure m) }
    else none
  | _, _ => none

/-- SET_WATCH is carried out (R85, R86, R87). -/
def State.watchRequest (id : Nat) (i : StreamId) (mode dir measure : Byte) (threshold : Word) (s : State) : State :=
  match s.body.stream i with
  | some st =>
    if mode = 0 then (s.onBody (Body.put i st { st with watch := none })).finish id .ok 0
    else if mode = 1 then
      match st.watchAsked dir measure threshold with
      | some w =>
        (s.onBody fun b =>
          let set := b.put i st { st with watch := some w }
          if w.condition then set.raise (some i) (.watch true) else set).finish id .ok w.condition.toNat
      | none => s.finish id .badRequest 0
    else s.finish id .badRequest 0
  | none => s.finish id .wrongState 0

/-! ### Queries (R172, R173) -/

/-- QUERY_STREAM is carried out (R172). -/
def State.queryStreamRequest (id : Nat) (i : StreamId) (addr : Addr) (s : State) : State :=
  if pastTop addr 64 then s.finish id .badRequest 0
  else s.onBody (Body.setWork id (.streamWrites addr (s.body.streamSnapshot i)))

/-- QUERY_LINK is carried out (R173). -/
def State.queryLinkRequest (id : Nat) (addr : Addr) (s : State) : State :=
  if pastTop addr 128 then s.finish id .badRequest 0
  else s.onBody (Body.setWork id (.linkWrites addr s.linkSnapshot))

/-! ### Link and profile requests -/

/-- The role, period and timeout of a LINK_UP, where all are in range (R136). -/
def linkUpParams (role : Byte) (period timeout : Word) : Option (Role × Period × Nat) :=
  match Role.ofCode role, Period.ofUs period.toNat with
  | some r, some p => if 10 ≤ timeout.toNat ∧ timeout.toNat ≤ 60000 then some (r, p, timeout.toNat) else none
  | _, _ => none

/-- LINK_UP is carried out (R136). -/
def State.linkUpRequest (id : Nat) (role : Byte) (period timeout : Word) (s : State) : State :=
  match linkUpParams role period timeout with
  | some (r, p, t) => if s.bp.link = .down then s.callPeer id r p t else s.finish id .wrongState 0
  | none => s.finish id .badRequest 0

/-- LINK_DOWN is carried out (R144): from UP it completes when the FAREWELL has been sent. -/
def State.linkDownRequest (id : Nat) (s : State) : State :=
  let down := s.takeDownHere .overtaken
  if s.isUp then down else down.finish id .ok 0

/-- LOAD_PROFILE is taken (R132). Of a length out of range in a buffer that passes beyond the top of the address space,
BAD_PROFILE comes first: the model's choice, notes/assumptions/13.md. -/
def State.loadProfileRequest (id : Nat) (addr : Addr) (length : Word) (s : State) : State :=
  if length.toNat < 8 ∨ 256 < length.toNat then s.finish id .badProfile 0
  else if pastTop addr length.toNat then s.finish id .badRequest 0
  else s.onBody (Body.setWork id (.profileRead addr length.toNat))

/-- READ_PEER_PROFILE is taken (R134). -/
def State.readPeerRequest (id : Nat) (addr : Addr) (length : Word) (s : State) : State :=
  if 256 < length.toNat ∨ pastTop addr length.toNat then s.finish id .badRequest 0
  else match s.isUp, s.bp.peerProfile with
    | true, some peer =>
      if length.toNat = 0 then s.finish id .ok peer.length
      else s.onBody (Body.setWork id (.peerWrites addr (peer.take length.toNat) peer.length))
    | _, _ => s.finish id .linkNotUp 0

/-! ### Taking requests (R157, R168) -/

/-- An admitted request that names a stream is carried out in its owning chapter's rules. -/
def State.carryOutStream (id : Nat) (i : StreamId) (r : AdminRecord) (s : State) : State :=
  if r.code = 1 then s.openRequest id i r.openParams
  else if r.code = 2 then s.closeRequest id i
  else if r.code = 3 then s.abortRequest id i
  else if r.code = 4 then s.flushRequest id i
  else if r.code = 5 then s.resumeRequest id i
  else if r.code = 6 then s.watchRequest id i r.p0 r.p1 r.p2 r.w1
  else s.queryStreamRequest id i r.addr

/-- An admitted request that names no stream. -/
def State.carryOutLink (id : Nat) (r : AdminRecord) (s : State) : State :=
  if r.code = 8 then s.linkUpRequest id r.p0 r.w1 r.w2
  else if r.code = 9 then s.linkDownRequest id
  else if r.code = 10 then s.loadProfileRequest id r.addr r.w1
  else if r.code = 11 then s.readPeerRequest id r.addr r.w1
  else s.queryLinkRequest id r.addr

/-- The new entry of a record that is handed on (R168). -/
def entryOf (id position : Nat) (r : AdminRecord) (admitted : Bool) : Entry :=
  { id := id, position := position, code := r.code, field := r.field
    stream := if admitted && isStreamCode r.code then streamOf r.field else none
    tag := r.tag, claim := admitted && isClaimCode r.code, work := .none, held := none }

/-- A record joins the in-flight table and is examined (R168). -/
def State.takeRequest (position : Nat) (r : AdminRecord) (s : State) : State :=
  let id := s.body.nextId
  let refusal := admissionRefusal r s.body.table
  let joined := s.onBody fun b =>
    { b with table := b.table ++ [entryOf id position r refusal.isNone], nextId := id + 1 }
  match refusal with
  | some status => joined.finish id status 0
  | none =>
    if isStreamCode r.code then
      match streamOf r.field with
      | some i => joined.carryOutStream id i r
      | none => joined
    else joined.carryOutLink id r

/-- The admin records that stand at the taken position are handed on one after another (R157); what one request starts
runs before the next is examined (notes/assumptions/29.md). The completions formed join together when the event settles
(R160). -/
def State.handOnRequests : Nat → State → State
  | 0, s => s
  | n + 1, s =>
    match s.body.admin with
    | some ring => match ring.next? with
      | some (bits, moved) =>
        let taken := (s.onBody fun b => { b with admin := some moved }).takeRequest ring.taken (AdminRecord.read bits)
        (taken.onBody (Body.runStreams taken.env)).handOnRequests n
      | none => s
    | none => s

/-- The `slot`-th admin fetch in flight ends (R157, R182). In STOPPING what returns is discarded. -/
def State.adminFetchEnds (slot : Nat) (result : Option (BitVec 256)) (s : State) : State :=
  match s.body.admin with
  | some ring =>
    if slot < ring.fetches.length then
      match s.fn, result with
      | .running, some bits =>
        (s.onBody fun b => { b with admin := some (ring.fetchReturned slot bits) }).handOnRequests 8
      | .running, none => s.enterFault .adminFetch
      | _, _ => s.onBody fun b => { b with admin := some { ring with fetches := ring.fetches.eraseIdx slot } }
    else s
  | none => s

/-- The oldest admin fetch in flight that no NOTIFY has cut off returns this request. Its position is the taken
position, so the request is examined in this event (notes/assumptions/8.md). -/
def State.requestArrives (r : AdminRecord) (s : State) : State :=
  match s.body.admin with
  | some ring => match ring.fetches.findIdx? fun f => !f.dropped with
    | some slot => s.adminFetchEnds slot (some r.bits)
    | none => s
  | none => s

/-! ### The ends of requests' memory transfers -/

/-- The entry of an identity. -/
def Body.entry (id : Nat) (b : Body) : Option Entry := b.table.find? fun e => e.id == id

/-- The first refusal of R132 that applies to the bytes read. -/
def State.profileRefusal (length : Nat) (bytes : List Byte) (s : State) : Option Status :=
  if s.bp.link ≠ .down then some .wrongState
  else if !validProfile length bytes then some .badProfile
  else if (List.finRange 16).all fun i => match s.body.stream i with
      | some st => localAllows bytes i st
      | none => true then none
  else some .wrongState

/-- The LOAD_PROFILE read ends and the request is decided (R132; R180 in STOPPING). -/
def State.profileReadEnds (id : Nat) (result : Option (List Byte)) (s : State) : State :=
  match (s.body.entry id).map Entry.work with
  | some (.profileRead _ length) =>
    if s.fn = .stopping then s.finish id .aborted 0
    else match result with
      | none => s.finish id .memoryError 0
      | some data =>
        let bytes := fit length data
        match s.profileRefusal length bytes with
        | some status => s.finish id status 0
        | none =>
          { s with bp := { s.bp with localProfile := bytes } }.finish id .ok (checkValue bytes).toNat
  | _ => s

/-- The writes of a request have all ended: it completes with its result, or MEMORY_ERROR (R134, R172, R173; R180 in
STOPPING). -/
def State.writesEnd (id : Nat) (ok : Bool) (result : Nat) (s : State) : State :=
  if s.fn = .stopping then s.finish id .aborted 0
  else if ok then s.finish id .ok result
  else s.finish id .memoryError 0

end Sys2Proof.Machine
end

