-- ==== Sys2Proof/Machine/HostAccess.lean ====
section
/-! DEFINITION. The commands that reach the part from the host: resets, START, STOP, NOTIFY and register writes (11.1,
11.2, 9.2). -/

namespace Sys2Proof.Machine

open Sys2Proof Host

/-! ### Register writes (R177) -/

/-- The ring number of a NOTIFY value: bits 24 to 28. -/
def notifyRing (value : Word) : Nat := (value.extractLsb' 24 5).toNat

/-- The index of a NOTIFY value: bits 0 to 15. -/
def notifyIndex (value : Word) : BitVec 16 := value.extractLsb' 0 16

/-- The ARM flag of a NOTIFY value: bit 31. -/
def notifyArm (value : Word) : Bool := value.getLsbD 31

/-- A NOTIFY write (R153): decoded in RUNNING, in STOPPING for part-written rings, and ignored elsewhere. -/
def State.notifyWrite (value : Word) (s : State) : State :=
  if s.fn = .running ∨ s.fn = .stopping then
    s.onBody (Body.notify (s.fn == .running) (notifyRing value) (notifyIndex value) (notifyArm value))
  else s

/-- The command of a FUNCTION value: bits 0 and 1 (R177). -/
def functionCommand (value : Word) : Nat := (value.extractLsb' 0 2).toNat

/-- A write to FUNCTION (R177): 1 START, 2 STOP, 3 RESET, 0 nothing. -/
def State.functionWrite (value : Word) (s : State) : State :=
  if functionCommand value = 1 then s.event State.startCommand
  else if functionCommand value = 2 then s.event State.stopCommand
  else if functionCommand value = 3 then s.resetBlocks
  else s

/-- A write in the register window (R177): IDENT and the offsets that hold no register ignore it. -/
def State.registerWrite (offset value : Word) (s : State) : State :=
  if offset = 0x04 then { s with cbLo := value }
  else if offset = 0x08 then { s with cbHi := value }
  else if offset = 0x0C then s.functionWrite value
  else if offset = 0x10 then s.event (State.notifyWrite value)
  else s

/-! ### Meanings -/

/-- POWER_ON_RESET (R178). -/
def execPowerOnReset (s : State) : Outcome State Fault Refusal := .next s.powerOn

/-- RESET (R178). -/
def execReset (s : State) : Outcome State Fault Refusal := .next s.resetBlocks

/-- START (R179). -/
def execStart (s : State) : Outcome State Fault Refusal := .next (s.event State.startCommand)

/-- STOP (R179, R180). -/
def execStop (s : State) : Outcome State Fault Refusal := .next (s.event State.stopCommand)

/-- NOTIFY (R153). -/
def execNotify (value : Word) (s : State) : Outcome State Fault Refusal := .next (s.event (State.notifyWrite value))

/-- REGISTER_WRITE (R177). -/
def execRegisterWrite (offset value : Word) (s : State) : Outcome State Fault Refusal :=
  .next (s.registerWrite offset value)

end Sys2Proof.Machine
end

