-- ==== Sys2Proof/Machine/MemoryEnds.lean ====
section
/-! DEFINITION. The commands by which the memory port ends a transfer of the part: reads that return, writes that are
accepted, and error responses (R182 and the table of 11.3). -/

namespace Sys2Proof.Machine

open Sys2Proof Host

/-! ### Work record fetches (R156) -/

/-- The `slot`-th fetch of a stream's work ring ends; an error response halts a stream that can halt (R156). -/
def Body.recordFetchEnds (i : StreamId) (slot : Nat) (result : Option (BitVec 256)) (b : Body) : Body :=
  match b.stream i with
  | some st =>
    if slot < st.ring.fetches.length then
      match result with
      | some bits => b.put i st { st with ring := st.ring.fetchReturned slot bits }
      | none =>
        (b.put i st { st with ring := { st.ring with fetches := st.ring.fetches.eraseIdx slot } }).halt i .fetchError
    else b
  | none => b

/-! ### Send-buffer reads (R52, R53) -/

/-- The place in the list of reads of the `slot`-th one that is in flight. -/
def readPlace (slot : Nat) (reads : List SendRead) : Option Nat :=
  ((List.range reads.length).filter fun k => (reads[k]?.map fun r => r.data.isNone).getD false)[slot]?

/-- A failed read counts for the completions of the halt it causes, or of the halt for another cause than MEMORY_ERROR
that it falls into (R53). -/
def Stream.failureCounts (st : Stream) : Bool :=
  st.mayHalt || (st.state == .halting && st.cause != some .memoryError)

/-- A read fails, and nothing of it is placed. The record it covers is the failed record of a halt for MEMORY_ERROR that
it causes, which stays the record of the first error; of a halt for another cause any failed read is remembered
(R53). -/
def Stream.readFailed (place : Nat) (r : SendRead) (st : Stream) : Stream :=
  { st with reads := st.reads.eraseIdx place, failed := if st.failureCounts then some r.position else st.failed }

/-- The `slot`-th send-buffer read of a stream ends (R52, R53). -/
def Body.sendReadEnds (i : StreamId) (slot : Nat) (result : Option (List Byte)) (b : Body) : Body :=
  match b.stream i with
  | some st => match readPlace slot st.reads with
    | some place => match st.reads[place]? with
      | some r => match result with
        | some data => b.put i st { st with reads := st.reads.set place { r with data := some (fit r.length data) } }
        | none => (b.put i st (st.readFailed place r)).halt i .memoryError
      | none => b
    | none => b
  | none => b

/-! ### Receive-buffer writes (R71, R79) -/

/-- The oldest receive-buffer write of a stream ends (R71, R79): after a failed write none is counted. -/
def Body.receiveWriteEnds (i : StreamId) (ok : Bool) (b : Body) : Body :=
  match b.stream i with
  | some st => match st.writes with
    | w :: rest =>
      let ended := { st with writes := rest }
      if ok then b.put i st (if st.writeFailed then ended else ended.countWrite w)
      else (b.put i st { ended with writeFailed := true }).halt i .memoryError
    | [] => b
  | none => b

/-! ### Writes of the Ring Interface (R161, R162, R163) -/

/-- The held completion of a stream has been written; a bad record whose completion this was is forgotten (R46,
R66). -/
def Stream.completionWritten (st : Stream) : Stream :=
  { st with
    held := none
    bad := match st.bad with
      | some r => if r.formed then none else some r
      | none => none }

/-- The memory port accepts the completion of a source (R161, R169). -/
def Body.completionAccepted (src : Source) (b : Body) : Body :=
  match src with
  | .stream i => b.modify i Stream.completionWritten
  | .admin id => { b with table := b.table.filter fun e => e.id != id }

/-- A completion write. -/
def RingWrite.isCompletion (w : RingWrite) : Bool :=
  match w.kind with
  | .completion _ => true
  | _ => false

/-- What an accepted write of the Ring Interface does beside ending. -/
def Body.ringWriteAccepted (kind : RingWriteKind) (b : Body) : Body :=
  match kind with
  | .completion src => b.completionAccepted src
  | .event => b
  | .interrupt => b

/-- The oldest write in flight that `p` picks ends; an error response faults the part (R161, R162, R163). -/
def State.ringWriteEnds (p : RingWrite → Bool) (ok : Bool) (s : State) : State :=
  match s.body.ringWrites.find? p with
  | some w =>
    if ok then s.onBody fun b => { b with ringWrites := b.ringWrites.eraseP p }.ringWriteAccepted w.kind
    else s.enterFault .postWrite
  | none => s

/-! ### Meanings -/

/-- CONTROL_BLOCK_READ_END (R150). -/
def execControlBlockReadEnd (result : Option (BitVec 1024)) (s : State) : Outcome State Fault Refusal :=
  .next (s.event (State.controlBlockRead result))

/-- ADMIN_FETCH_RETURN (R157). -/
def execAdminFetchReturn (slot : Nat) (result : Option (BitVec 256)) (s : State) : Outcome State Fault Refusal :=
  .next (s.event (State.adminFetchEnds slot result))

/-- WORK_RECORD_FETCH_RETURN (R156). -/
def execWorkRecordFetchReturn (i : StreamId) (slot : Nat) (result : Option (BitVec 256)) (s : State) :
    Outcome State Fault Refusal :=
  .next (s.event (State.onBody (Body.recordFetchEnds i slot result)))

/-- SEND_BUFFER_READ_RETURN (R52, R53). -/
def execSendBufferReadReturn (i : StreamId) (slot : Nat) (result : Option (List Byte)) (s : State) :
    Outcome State Fault Refusal :=
  .next (s.event (State.onBody (Body.sendReadEnds i slot result)))

/-- RECEIVE_BUFFER_WRITE_END (R71, R79). -/
def execReceiveBufferWriteEnd (i : StreamId) (ok : Bool) (s : State) : Outcome State Fault Refusal :=
  .next (s.event (State.onBody (Body.receiveWriteEnds i ok)))

/-- COMPLETION_WRITE_END (R161). -/
def execCompletionWriteEnd (ok : Bool) (s : State) : Outcome State Fault Refusal :=
  .next (s.event (State.ringWriteEnds RingWrite.isCompletion ok))

/-- EVENT_WRITE_END (R162). -/
def execEventWriteEnd (ok : Bool) (s : State) : Outcome State Fault Refusal :=
  .next (s.event (State.ringWriteEnds (fun w => w.kind == .event) ok))

/-- INTERRUPT_MESSAGE_WRITE_END (R163). -/
def execInterruptMessageWriteEnd (ok : Bool) (s : State) : Outcome State Fault Refusal :=
  .next (s.event (State.ringWriteEnds (fun w => w.kind == .interrupt) ok))

/-- LOAD_PROFILE_READ_END (R132). -/
def execLoadProfileReadEnd (entry : Nat) (result : Option (List Byte)) (s : State) : Outcome State Fault Refusal :=
  .next (s.event (State.profileReadEnds entry result))

/-- READ_PEER_PROFILE_WRITES_END (R134): the result is the length of the peer profile. -/
def execReadPeerProfileWritesEnd (entry : Nat) (ok : Bool) (s : State) : Outcome State Fault Refusal :=
  .next (s.event fun s => match (s.body.entry entry).map Entry.work with
    | some (.peerWrites _ _ length) => s.writesEnd entry ok length
    | _ => s)

/-- QUERY_STREAM_WRITES_END (R172): the result is 64. -/
def execQueryStreamWritesEnd (entry : Nat) (ok : Bool) (s : State) : Outcome State Fault Refusal :=
  .next (s.event fun s => match (s.body.entry entry).map Entry.work with
    | some (.streamWrites _ _) => s.writesEnd entry ok 64
    | _ => s)

/-- QUERY_LINK_WRITES_END (R173): the result is 128. -/
def execQueryLinkWritesEnd (entry : Nat) (ok : Bool) (s : State) : Outcome State Fault Refusal :=
  .next (s.event fun s => match (s.body.entry entry).map Entry.work with
    | some (.linkWrites _ _) => s.writesEnd entry ok 128
    | _ => s)

end Sys2Proof.Machine
end

