-- ==== Sys2Proof/Machine/Requests.lean ====
section
/-! DEFINITION. The admin requests as commands: the record that the admin ring's next fetch returns is this request
(chapter 10; 11.4, "Admin request"). Each is examined, refused or carried out as the Admin Processor does with any
record that returns. -/

namespace Sys2Proof.Machine

open Sys2Proof Host

/-- OPEN_STREAM (R4 to R8). -/
def execOpenStream (tag : Tag) (stream : Byte) (params : OpenParams) (s : State) : Outcome State Fault Refusal :=
  .next (s.event (State.requestArrives (AdminRecord.ofOpen stream tag params)))

/-- CLOSE_STREAM (R21). -/
def execCloseStream (tag : Tag) (stream : Byte) (s : State) : Outcome State Fault Refusal :=
  .next (s.event (State.requestArrives (AdminRecord.plain 2 stream tag)))

/-- ABORT_STREAM (R24). -/
def execAbortStream (tag : Tag) (stream : Byte) (s : State) : Outcome State Fault Refusal :=
  .next (s.event (State.requestArrives (AdminRecord.plain 3 stream tag)))

/-- FLUSH_STREAM (R18). -/
def execFlushStream (tag : Tag) (stream : Byte) (s : State) : Outcome State Fault Refusal :=
  .next (s.event (State.requestArrives (AdminRecord.plain 4 stream tag)))

/-- RESUME_STREAM (R17). -/
def execResumeStream (tag : Tag) (stream : Byte) (s : State) : Outcome State Fault Refusal :=
  .next (s.event (State.requestArrives (AdminRecord.plain 5 stream tag)))

/-- SET_WATCH (R86). -/
def execSetWatch (tag : Tag) (stream mode dir measure : Byte) (threshold : Word) (s : State) :
    Outcome State Fault Refusal :=
  .next (s.event (State.requestArrives
    { AdminRecord.plain 6 stream tag with p0 := mode, p1 := dir, p2 := measure, w1 := threshold }))

/-- QUERY_STREAM (R172). -/
def execQueryStream (tag : Tag) (stream : Byte) (addr : Addr) (s : State) : Outcome State Fault Refusal :=
  .next (s.event (State.requestArrives { AdminRecord.plain 7 stream tag with addr := addr }))

/-- LINK_UP (R136). -/
def execLinkUp (tag : Tag) (role : Byte) (period timeout : Word) (s : State) : Outcome State Fault Refusal :=
  .next (s.event (State.requestArrives { AdminRecord.plain 8 0 tag with p0 := role, w1 := period, w2 := timeout }))

/-- LINK_DOWN (R144). -/
def execLinkDown (tag : Tag) (s : State) : Outcome State Fault Refusal :=
  .next (s.event (State.requestArrives (AdminRecord.plain 9 0 tag)))

/-- LOAD_PROFILE (R132). -/
def execLoadProfile (tag : Tag) (addr : Addr) (length : Word) (s : State) : Outcome State Fault Refusal :=
  .next (s.event (State.requestArrives { AdminRecord.plain 10 0 tag with addr := addr, w1 := length }))

/-- READ_PEER_PROFILE (R134). -/
def execReadPeerProfile (tag : Tag) (addr : Addr) (length : Word) (s : State) : Outcome State Fault Refusal :=
  .next (s.event (State.requestArrives { AdminRecord.plain 11 0 tag with addr := addr, w1 := length }))

/-- QUERY_LINK (R173). -/
def execQueryLink (tag : Tag) (addr : Addr) (s : State) : Outcome State Fault Refusal :=
  .next (s.event (State.requestArrives { AdminRecord.plain 12 0 tag with addr := addr }))

end Sys2Proof.Machine
end

