-- ==== Sys2Proof/Machine/FrameArrivals.lean ====
section
/-! DEFINITION. The commands by which frames arrive on the link (chapters 6, 7 and 8). The check value, kind and length
of a frame have been compared before it becomes one of these commands (R110; `commandsOfFrame` in Sys2Proof/Decode.lean);
a frame that fails is an INVALID_FRAME. -/

namespace Sys2Proof.Machine

open Sys2Proof Host

/-- Frames are not received while the line signal is absent (R146). -/
def State.hear (effect : State → State) (s : State) : State := if s.lsig then effect s else s

/-- A frame that is acted on only while the link is UP (R111). -/
def State.hearUp (effect : Body → Body) (s : State) : State :=
  s.hear fun s => if s.isUp then s.onBody effect else s

/-- The end of a DATA frame of this class whose check passes: with the link UP it is decided, otherwise it is dropped
and the buffer it claimed becomes FREE (R110, R111). -/
def State.dataEnds (cls : StreamClass) (rest : List Byte) (decision : Reception → List Byte → Body → Body)
    (s : State) : State :=
  match s.body.rx with
  | some r =>
    if r.header.cls = cls then
      if s.lsig ∧ s.isUp ∧ r.header.length ≤ 1024 then
        s.onBody (decision r (fit r.header.length (r.arrived ++ rest)))
      else s.onBody Body.undoClaim
    else s
  | none => s

/-- A GONE for a best-effort OUT stream with a SENT buffer (R123). -/
def Body.goneActs (i : StreamId) (b : Body) : Body :=
  match b.stream i with
  | some st => if st.isBestEffortOut ∧ st.sentIndex.isSome then b.haltOrAbandon i .peerClosed else b
  | none => b

/-! ### Meanings -/

/-- DATA_HEADER_ARRIVAL (R38): 8 bytes whose first is the kind DATA. -/
def execDataHeaderArrival (header : BitVec 64) (s : State) : Outcome State Fault Refusal :=
  .next (s.event (State.hear fun s =>
    if byteAt header 0 = 1 then s.onBody (Body.headerArrives s.isUp (DataHeader.read header)) else s))

/-- DATA_ARRIVAL_STEP (R38). -/
def execDataArrivalStep (bytes : BitVec 512) (s : State) : Outcome State Fault Refusal :=
  .next (s.event (State.hear fun s => s.onBody (Body.payloadArrives s.isUp (bytesOf 64 bytes))))

/-- DATA_BEST_EFFORT_END (R124). -/
def execDataBestEffortEnd (rest : List Byte) (s : State) : Outcome State Fault Refusal :=
  .next (s.event (State.dataEnds .bestEffort rest (Body.bestEffortEnds s.ce.cycle)))

/-- DATA_SCHEDULED_END (R125). -/
def execDataScheduledEnd (rest : List Byte) (s : State) : Outcome State Fault Refusal :=
  .next (s.event (State.dataEnds .scheduled rest (Body.scheduledEnds s.ce.cycle)))

/-- ACCEPT (R121). -/
def execAccept (i : StreamId) (bit : Bool) (s : State) : Outcome State Fault Refusal :=
  .next (s.event (State.hearUp (Body.modify i (Stream.accepted bit s.ce.cycle))))

/-- DEFER (R122). -/
def execDefer (i : StreamId) (bit : Bool) (s : State) : Outcome State Fault Refusal :=
  .next (s.event (State.hearUp (Body.modify i (Stream.deferred bit))))

/-- GONE (R123). -/
def execGone (i : StreamId) (s : State) : Outcome State Fault Refusal := .next (s.event (State.hearUp (Body.goneActs i)))

/-- NOTICE (R128). -/
def execNotice (i : StreamId) (kind : Byte) (s : State) : Outcome State Fault Refusal :=
  .next (s.event (State.hearUp fun b => (b.addDue (.noticeAck i kind)).noticeActs i kind))

/-- NOTICE_ACK (R129). -/
def execNoticeAck (i : StreamId) (kind : Byte) (s : State) : Outcome State Fault Refusal :=
  .next (s.event (State.hearUp (Body.noticeAcked i kind)))

/-- CYCLE_START (R99, R100, R101). -/
def execCycleStart (number : CycleNum) (s : State) : Outcome State Fault Refusal :=
  .next (s.event (State.hear (State.markerArrives number)))

/-- CYCLE_ECHO (R98). -/
def execCycleEcho (number : CycleNum) (s : State) : Outcome State Fault Refusal :=
  .next (s.event (State.hear (State.echoArrives number)))

/-- HELLO (R138). -/
def execHello (role : Byte) (period length : BitVec 16) (check : Word) (s : State) : Outcome State Fault Refusal :=
  .next (s.event (State.hear (State.helloArrives { role := role, period := period, length := length, check := check })))

/-- PROFILE_CHUNK (R140). -/
def execProfileChunk (number : Byte) (bytes : List Byte) (s : State) : Outcome State Fault Refusal :=
  .next (s.event (State.hear (State.chunkArrives number bytes)))

/-- PROFILE_ACK (R139). -/
def execProfileAck (number : Byte) (s : State) : Outcome State Fault Refusal :=
  .next (s.event (State.hear (State.ackArrives number)))

/-- FAREWELL (R145). -/
def execFarewell (s : State) : Outcome State Fault Refusal := .next (s.event (State.hear State.farewellArrives))

/-- INVALID_FRAME (R110): the claim its header made is undone. -/
def execInvalidFrame (s : State) : Outcome State Fault Refusal := .next (s.event (State.onBody Body.undoClaim))

end Sys2Proof.Machine
end

