-- ==== Sys2Proof/Machine/Timers.lean ====
section
/-! DEFINITION. The commands of the transmit lane, of the part's own timers and of the line signal input (chapters 6, 7
and 8), and the tick of the timebase. -/

namespace Sys2Proof.Machine

open Sys2Proof Host

/-- The last byte of the frame under way has been sent and the lane is free (R112): a scheduled packet is confirmed
(R115), and a FAREWELL completes the LINK_DOWN that waits for it (R144). -/
def Body.frameEnds (cycle : CycleNum) (b : Body) : Body :=
  let freed := { b with lt := { b.lt with lane := none } }
  match b.lt.lane with
  | none => b
  | some (.control f) => if f.isFarewell then freed.completeIf (fun e => e.code == 9) .ok 0 else freed
  | some (.data h k _) =>
    if h.cls = .scheduled then freed.modify h.stream (Stream.scheduledSent k cycle) else freed

/-! ### Meanings -/

/-- TRANSMIT_FRAME_END (R112). -/
def execTransmitFrameEnd (s : State) : Outcome State Fault Refusal :=
  .next (s.event (State.onBody (Body.frameEnds s.ce.cycle)))

/-- LEADER_PERIOD_EXPIRY (R97). -/
def execLeaderPeriodExpiry (s : State) : Outcome State Fault Refusal := .next (s.event State.periodExpires)

/-- FOLLOWER_DEADLINE (R102, R103). -/
def execFollowerDeadline (s : State) : Outcome State Fault Refusal := .next (s.event State.deadlinePasses)

/-- HELLO_TIMER_EXPIRY (R137). -/
def execHelloTimerExpiry (s : State) : Outcome State Fault Refusal := .next (s.event State.helloExpires)

/-- ANSWER_TIMER_EXPIRY (R139). -/
def execAnswerTimerExpiry (s : State) : Outcome State Fault Refusal := .next (s.event State.answerExpires)

/-- BRING_UP_TIMER_EXPIRY (R143). -/
def execBringUpTimerExpiry (s : State) : Outcome State Fault Refusal := .next (s.event State.bringUpExpires)

/-- LOSS_OF_SIGNAL (R146). The input falls in every function state; in FAULTED the part does not act on it (R182). -/
def execLossOfSignal (s : State) : Outcome State Fault Refusal :=
  .next ({ s with lsig := false }.event State.signalLost)

/-- SIGNAL_PRESENT (R146). -/
def execSignalPresent (s : State) : Outcome State Fault Refusal :=
  .next ({ s with lsig := true }.event State.signalRises)

/-! ### The timebase -/

/-- A timer has come to its time. -/
def isDue (now : Nat) : Option Nat → Bool
  | some t => decide (t ≤ now)
  | none => false

/-- The commands of the timers that have come to their time (R97, R102, R137, R139, R143), in the order in which the
model takes several (notes/assumptions/7.md). -/
def State.expiries (s : State) : List Instr :=
  (if isDue s.now s.ce.periodEnds then [Instr.leaderPeriodExpiry] else []) ++
  (if isDue s.now s.ce.deadline then [Instr.followerDeadline] else []) ++
  (if isDue s.now s.bp.bringUpEnds then [Instr.bringUpTimerExpiry] else []) ++
  (if isDue s.now (s.bp.outgoing.bind Outgoing.timer) then [Instr.answerTimerExpiry] else []) ++
  (if isDue s.now s.bp.helloEnds then [Instr.helloTimerExpiry] else [])

/-- With no command waiting, 1 µs passes and the timers that have come to their time send their commands. In FAULTED
the timers stand (R182). -/
def State.tick (s : State) : State :=
  if s.fn = .faulted then s
  else
    let later := { s with now := s.now + 1 }
    { later with pending := later.expiries }

end Sys2Proof.Machine
end

