-- ==== Sys2Proof/Decode.lean ====
section
/-! DEFINITION. What reaches the part as bits, read as commands. spec/opcode_table.json gives no row any bits, so no
word of the table spells a command; what the spec does spell in bits is the frames of the link (11.4, R110, R184,
R185). -/

namespace Sys2Proof

open Machine

/-- The command a word spells by the table's bits: no row of the table has bits. -/
def decodeTableWord (_nbits _w : Nat) : Option Instr := none

namespace Machine

/-! ### Frames (R110, R184, R185) -/

/-- The frame's last 4 bytes are the check value of the bytes before them (R110, R185). -/
def checkPasses (frame : List Byte) : Bool :=
  decide (4 ≤ frame.length) &&
    frame.drop (frame.length - 4) == bytesOf 4 (checkValue (frame.take (frame.length - 4)))

/-- The 16-bit field of the bytes from `k` on. -/
def half (bs : List Byte) (k : Nat) : BitVec 16 := BitVec.ofNat 16 (leVal ((bs.drop k).take 2))

/-- The stream number of byte 1, bits 0 to 3. -/
def frameStream (bs : List Byte) : StreamId := Fin.ofNat 16 (bs.getD 1 0).toNat

/-- The sequence bit of byte 1, bit 6. -/
def frameBit (bs : List Byte) : Bool := (bs.getD 1 0).getLsbD 6

/-- The command of a control frame whose check value has been taken off, if its kind is that of a control frame and its
number of bytes is that of its kind (R185). Zero bits and bytes are not examined. -/
def commandOfControl (bs : List Byte) : Option Instr :=
  let kind := (bs.getD 0 0).toNat
  if bs.length = 4 then
    if kind = 2 then some (.accept (frameStream bs) (frameBit bs))
    else if kind = 3 then some (.defer (frameStream bs) (frameBit bs))
    else if kind = 4 then some (.gone (frameStream bs))
    else if kind = 5 then some (.notice (frameStream bs) (bs.getD 2 0))
    else if kind = 6 then some (.noticeAck (frameStream bs) (bs.getD 2 0))
    else if kind = 7 then some (.cycleStart (half bs 2))
    else if kind = 8 then some (.cycleEcho (half bs 2))
    else if kind = 11 then some (.profileAck (bs.getD 1 0))
    else if kind = 12 then some .farewell
    else none
  else if kind = 9 ∧ bs.length = 12 then
    some (.hello (bs.getD 1 0) (half bs 2) (half bs 4) (BitVec.ofNat 32 (leVal ((bs.drop 8).take 4))))
  else if kind = 10 ∧ 8 ≤ bs.length ∧ bs.length = 8 + (half bs 4).toNat then some (.profileChunk (bs.getD 1 0) (bs.drop 8))
  else none

/-- The full 64-byte steps of a payload, at most `n` of them. -/
def stepsOf : Nat → List Byte → List Instr
  | 0, _ => []
  | n + 1, bs =>
    if 64 ≤ bs.length then .dataArrivalStep (BitVec.ofNat 512 (leVal (bs.take 64))) :: stepsOf n (bs.drop 64) else []

/-- The commands of a DATA frame whose check passes and whose length is right: header, steps of 64 bytes, end. -/
def dataCommands (header : BitVec 64) (payload : List Byte) : List Instr :=
  let steps := payload.length / 64
  let rest := payload.drop (64 * steps)
  .dataHeaderArrival header :: stepsOf steps payload ++
    [if header.getLsbD 12 then .dataBestEffortEnd rest else .dataScheduledEnd rest]

/-- The commands by which a received frame reaches the part: what its header and payload do as they arrive, and its end
(R38, R110, R184, R185). The bytes of a DATA frame count towards its payload up to the length its header gives. The last
4 bytes of a damaged frame that ends short of that length do not count, as if they were its check value: the model's
choice, notes/assumptions/52.md. -/
def commandsOfFrame (frame : List Byte) : List Instr :=
  let bs := frame.take (frame.length - 4)
  if frame.getD 0 0 = 1 ∧ 8 ≤ frame.length then
    let header := BitVec.ofNat 64 (leVal (frame.take 8))
    let length := (half frame 4).toNat
    let payload := (frame.drop 8).take (min length (frame.length - 12))
    if checkPasses frame ∧ frame.length = length + 12 ∧ length ≤ 1024 then dataCommands header payload
    else .dataHeaderArrival header :: stepsOf (payload.length / 64) payload ++ [.invalidFrame]
  else if checkPasses frame then
    match commandOfControl bs with
    | some c => [c]
    | none => [.invalidFrame]
  else [.invalidFrame]

/-- The command a control frame of the peer is here. -/
def ControlFrame.command : ControlFrame → Instr
  | .accept i b => .accept i b
  | .defer i b => .defer i b
  | .gone i => .gone i
  | .notice i k => .notice i k
  | .noticeAck i k => .noticeAck i k
  | .cycleStart n => .cycleStart n
  | .cycleEcho n => .cycleEcho n
  | .hello role period length check => .hello role period length check
  | .profileChunk n bs => .profileChunk n bs
  | .profileAck n => .profileAck n
  | .farewell => .farewell

end Machine

end Sys2Proof
end

