-- ==== Sys2Proof/Machine/Dispatch.lean ====
section
/-! DEFINITION. One arm per command, each one direct call of its meaning. -/

namespace Sys2Proof.Machine

open Sys2Proof Host

/-- The effect of a command on the part. -/
def exec (i : Instr) (s : State) : Host.Outcome State Fault Refusal :=
  match i with
  | .powerOnReset => Sys2Proof.Machine.execPowerOnReset s
  | .reset => Sys2Proof.Machine.execReset s
  | .start => Sys2Proof.Machine.execStart s
  | .stop => Sys2Proof.Machine.execStop s
  | .notify value => Sys2Proof.Machine.execNotify value s
  | .registerWrite offset value => Sys2Proof.Machine.execRegisterWrite offset value s
  | .controlBlockReadEnd result => Sys2Proof.Machine.execControlBlockReadEnd result s
  | .adminFetchReturn slot result => Sys2Proof.Machine.execAdminFetchReturn slot result s
  | .workRecordFetchReturn stream slot result => Sys2Proof.Machine.execWorkRecordFetchReturn stream slot result s
  | .sendBufferReadReturn stream slot result => Sys2Proof.Machine.execSendBufferReadReturn stream slot result s
  | .receiveBufferWriteEnd stream ok => Sys2Proof.Machine.execReceiveBufferWriteEnd stream ok s
  | .completionWriteEnd ok => Sys2Proof.Machine.execCompletionWriteEnd ok s
  | .eventWriteEnd ok => Sys2Proof.Machine.execEventWriteEnd ok s
  | .interruptMessageWriteEnd ok => Sys2Proof.Machine.execInterruptMessageWriteEnd ok s
  | .loadProfileReadEnd entry result => Sys2Proof.Machine.execLoadProfileReadEnd entry result s
  | .readPeerProfileWritesEnd entry ok => Sys2Proof.Machine.execReadPeerProfileWritesEnd entry ok s
  | .queryStreamWritesEnd entry ok => Sys2Proof.Machine.execQueryStreamWritesEnd entry ok s
  | .queryLinkWritesEnd entry ok => Sys2Proof.Machine.execQueryLinkWritesEnd entry ok s
  | .openStream tag stream params => Sys2Proof.Machine.execOpenStream tag stream params s
  | .closeStream tag stream => Sys2Proof.Machine.execCloseStream tag stream s
  | .abortStream tag stream => Sys2Proof.Machine.execAbortStream tag stream s
  | .flushStream tag stream => Sys2Proof.Machine.execFlushStream tag stream s
  | .resumeStream tag stream => Sys2Proof.Machine.execResumeStream tag stream s
  | .setWatch tag stream mode dir measure threshold => Sys2Proof.Machine.execSetWatch tag stream mode dir measure threshold s
  | .queryStream tag stream addr => Sys2Proof.Machine.execQueryStream tag stream addr s
  | .linkUp tag role period timeout => Sys2Proof.Machine.execLinkUp tag role period timeout s
  | .linkDown tag => Sys2Proof.Machine.execLinkDown tag s
  | .loadProfile tag addr length => Sys2Proof.Machine.execLoadProfile tag addr length s
  | .readPeerProfile tag addr length => Sys2Proof.Machine.execReadPeerProfile tag addr length s
  | .queryLink tag addr => Sys2Proof.Machine.execQueryLink tag addr s
  | .dataHeaderArrival header => Sys2Proof.Machine.execDataHeaderArrival header s
  | .dataArrivalStep bytes => Sys2Proof.Machine.execDataArrivalStep bytes s
  | .dataBestEffortEnd rest => Sys2Proof.Machine.execDataBestEffortEnd rest s
  | .dataScheduledEnd rest => Sys2Proof.Machine.execDataScheduledEnd rest s
  | .accept stream bit => Sys2Proof.Machine.execAccept stream bit s
  | .defer stream bit => Sys2Proof.Machine.execDefer stream bit s
  | .gone stream => Sys2Proof.Machine.execGone stream s
  | .notice stream kind => Sys2Proof.Machine.execNotice stream kind s
  | .noticeAck stream kind => Sys2Proof.Machine.execNoticeAck stream kind s
  | .cycleStart number => Sys2Proof.Machine.execCycleStart number s
  | .cycleEcho number => Sys2Proof.Machine.execCycleEcho number s
  | .hello role period length check => Sys2Proof.Machine.execHello role period length check s
  | .profileChunk number bytes => Sys2Proof.Machine.execProfileChunk number bytes s
  | .profileAck number => Sys2Proof.Machine.execProfileAck number s
  | .farewell => Sys2Proof.Machine.execFarewell s
  | .invalidFrame => Sys2Proof.Machine.execInvalidFrame s
  | .transmitFrameEnd => Sys2Proof.Machine.execTransmitFrameEnd s
  | .leaderPeriodExpiry => Sys2Proof.Machine.execLeaderPeriodExpiry s
  | .followerDeadline => Sys2Proof.Machine.execFollowerDeadline s
  | .helloTimerExpiry => Sys2Proof.Machine.execHelloTimerExpiry s
  | .answerTimerExpiry => Sys2Proof.Machine.execAnswerTimerExpiry s
  | .bringUpTimerExpiry => Sys2Proof.Machine.execBringUpTimerExpiry s
  | .lossOfSignal => Sys2Proof.Machine.execLossOfSignal s
  | .signalPresent => Sys2Proof.Machine.execSignalPresent s

end Sys2Proof.Machine
end

