-- ==== Sys2Proof/Safety.lean ====
section
/-! DEFINITION. What a good state of the part is: the laws that the spec states of its blocks, each as a structure of
named parts, and the words in which statements speak of the admin ring and of what follows from a request. -/

namespace Sys2Proof.Machine

open Sys2Proof

/-! ### The link and the cycle engine -/

/-- CALLING or EXCHANGING. -/
def LinkState.bringing (l : LinkState) : Bool := l == .calling || l == .exchanging

/-- The laws of the link state, the bring-up and the cycle engine (chapters 6 and 8). -/
structure LinkLaw (s : State) : Prop where
  /-- a peer profile is held exactly while the link is UP (R133) -/
  peer : s.bp.peerProfile.isSome = s.isUp
  /-- a LINK_UP is pending exactly in CALLING and EXCHANGING (8.2) -/
  pending : s.bp.pendingLinkUp.isSome = s.bp.link.bringing
  /-- the bring-up timer runs exactly then (R136, R142, R143) -/
  bringUpTimer : s.bp.bringUpEnds.isSome = s.bp.link.bringing
  /-- the HELLO timer runs only then (R137) -/
  helloTimer : s.bp.helloEnds.isSome = true → s.bp.link.bringing = true
  /-- in CALLING it always runs (R137) -/
  callingTimer : s.bp.link = .calling → s.bp.helloEnds.isSome = true
  /-- the peer HELLO is held exactly in EXCHANGING (R138, R142, R143) -/
  peerHello : s.bp.peerHello.isSome = (s.bp.link == .exchanging)
  /-- the outgoing exchange is there exactly in EXCHANGING -/
  outgoing : s.bp.outgoing.isSome = (s.bp.link == .exchanging)
  /-- the incoming exchange is there exactly in EXCHANGING -/
  incoming : s.bp.incoming.isSome = (s.bp.link == .exchanging)
  /-- a chunk in progress has its answer timer running and has been sent 1 to 8 times (R139) -/
  chunk : ∀ o ∈ s.bp.outgoing, o.timer.isSome = !o.done ∧ 1 ≤ o.sends ∧ o.sends ≤ 8
  /-- once a LINK_UP has been accepted the engine has a role and a period (R94) -/
  role : s.bp.link ≠ .down → s.ce.role.isSome = true ∧ s.ce.period.isSome = true
  /-- the leader's period timer runs exactly while the link is UP (R96, R106) -/
  periodTimer : s.ce.periodEnds.isSome = (s.isUp && s.ce.role == some .leader)
  /-- echo seen is present in the leader exactly while the link is UP (6.1, R106) -/
  echoSeen : s.ce.echoSeen.isSome = (s.isUp && s.ce.role == some .leader)
  /-- the follower has an expected marker time exactly while the link is UP (R100, R106) -/
  expected : s.ce.expected.isSome = (s.isUp && s.ce.role == some .follower)
  /-- a follower's first-marker flag is clear in UP (R100) -/
  marked : s.isUp = true → s.ce.role = some .follower → s.ce.firstMarker = false
  /-- while the link is UP the period in force is the engine's period (R107) -/
  inForce : s.isUp = true → s.ce.period = some s.ce.inForce
  /-- in UP the sync state is LOCKED, or in the follower COASTING (R96, R101, R102) -/
  synced : s.isUp = true → s.ce.sync = .locked ∨ (s.ce.sync = .coasting ∧ s.ce.role = some .follower)
  /-- outside UP it is UNLOCKED or LOST (R94, R106) -/
  unsynced : s.isUp = false → s.ce.sync = .unlocked ∨ s.ce.sync = .lost
  /-- the coasting count goes with the sync state: 0, 1 to 7, or 7 in LOST (6.4, R102, R103, R106) -/
  coasting : match s.ce.sync with
    | .unlocked => s.ce.coasting = 0
    | .locked => s.ce.coasting = 0
    | .coasting => 1 ≤ s.ce.coasting ∧ s.ce.coasting ≤ 7
    | .lost => s.ce.coasting = 7
  /-- fewer than 16 consecutive cycles have gone without an echo, or the link is DOWN (R97) -/
  echoMiss : s.ce.echoMiss < 16 ∨ (s.bp.link = .down ∧ s.ce.echoMiss = 16)
  /-- the signal field follows the input, outside FAULTED (R146, R182) -/
  signal : s.fn ≠ .faulted → s.bp.signal = s.lsig
  /-- an exchange and an UP link have the signal (R146) -/
  heard : s.bp.link = .exchanging ∨ s.bp.link = .up → s.bp.signal = true

/-! ### The function state -/

/-- Every stream is CLOSED. -/
def Body.allClosed (b : Body) : Prop := ∀ i, b.stream i = none

/-- The host side is idle: no ring is configured, nothing waits and nothing is due (R149, R168, R175, R181). -/
structure IdleBody (b : Body) : Prop where
  closed : b.allClosed
  admin : b.admin = none
  completion : ∀ c : Fin 4, b.completion[c] = none
  event : b.event = none
  ringWrites : b.ringWrites = []
  table : b.table = []
  events : b.events = []
  lane : b.lt.lane = none
  due : b.lt.due = []

/-- The laws of the function state (chapter 11). -/
structure FunctionLaw (s : State) : Prop where
  /-- the fault code is absent in every function state but FAULTED (R177) -/
  fault : s.fault.isSome = (s.fn == .faulted)
  /-- a STOP is held only in STARTING (R179) -/
  heldStop : s.heldStop = true → s.fn = .starting
  /-- in OFF and STARTING the host side is idle and the link is DOWN (R1, R135, R149, R175, R181) -/
  idle : s.fn = .off ∨ s.fn = .starting → IdleBody s.body ∧ s.bp.link = .down
  /-- in RUNNING and STOPPING the admin ring, completion ring 0 and the event ring are configured (R151) -/
  configured : s.fn = .running ∨ s.fn = .stopping →
    s.body.admin.isSome = true ∧ s.body.completion[(0 : Fin 4)].isSome = true ∧ s.body.event.isSome = true
  /-- in STOPPING every open stream is ABORTING and the link is DOWN (R180) -/
  stopping : s.fn = .stopping → (∀ i, ∀ st ∈ s.body.stream i, st.state = .aborting) ∧ s.bp.link = .down
  /-- between events no frame has just become due (R112) -/
  settled : s.body.lt.fresh = []

/-! ### Events and notices -/

/-- The laws of the pending event list: one entry for each pair of source and kind, and counts of 1 to 255 (R174). -/
structure EventLaw (s : State) : Prop where
  pairs : (s.body.events.map fun e => (e.source, e.detail.kind)).Nodup
  counts : ∀ e ∈ s.body.events, 1 ≤ e.count ∧ e.count ≤ 255

/-- The laws of what Link Transfer holds: at most one notice for each stream (R126), and outside UP no budget, no turn,
no notice and no marker (R113). -/
structure TransferLaw (s : State) : Prop where
  notices : (s.body.lt.notices.map Notice.stream).Nodup
  down : s.isUp = false →
    s.body.lt.budget = 0 ∧ s.body.lt.turn = none ∧ s.body.lt.notices = [] ∧ s.body.lt.markerDue = false

/-! ### Rings -/

/-- The indices of a host-written ring lie below its size, a power of two from 8 to 4096 (9.1). -/
def HostRing.lawful (r : HostRing) : Prop :=
  validSize r.size = true ∧ r.posted < r.size ∧ r.taken < r.size ∧ r.fetchPos < r.size

/-- The indices of a part-written ring lie below its size (9.1). -/
def PartRing.lawful (r : PartRing) : Prop := validSize r.size = true ∧ r.put < r.size ∧ r.freed < r.size

/-- The records of a ring that are being fetched, or are held. -/
def HostRing.underway (r : HostRing) : Nat := r.fetches.length + r.returned.length

/-- The laws of the rings and of what is taken from them: the admin ring's records under way and the in-flight table
come to at most 8 (R157), and so do a stream's records under way and its list (R155). -/
structure RingLaw (s : State) : Prop where
  admin : ∀ r ∈ s.body.admin, r.lawful
  requests : (s.body.admin.map HostRing.underway).getD 0 + s.body.table.length ≤ 8
  completion : ∀ c : Fin 4, ∀ cr ∈ s.body.completion[c], cr.ring.lawful
  event : ∀ r ∈ s.body.event, r.lawful
  work : ∀ i, ∀ st ∈ s.body.stream i, st.ring.lawful
  records : ∀ i, ∀ st ∈ s.body.stream i, st.ring.underway + st.sends.length + st.receives.length ≤ 8

/-! ### The packet store -/

/-- The parameters of an open stream are in the ranges of R4. -/
def Stream.inRange (st : Stream) : Prop :=
  4 ≤ st.maxLen ∧ st.maxLen ≤ 1024 ∧ 2 ≤ st.buffers.length ∧ st.buffers.length ≤ 4

/-- A buffer of an OUT stream that is on its committed queue. -/
def Buffer.isQueuedOut (b : Buffer) : Bool := b.isCommitted || b.isSent

/-- A buffer state that a stream of this direction has (2.2). -/
def Buffer.suits (dir : Direction) (b : Buffer) : Bool :=
  match dir with
  | .outbound => b.isFree || b.isFilling || b.isQueuedOut
  | .inbound => b.isFree || b.isReceiving || b.isKept

/-- A buffer on the committed or held queue. -/
def Buffer.isQueued (b : Buffer) : Bool := b.isQueuedOut || b.isKept

/-- The laws of the packet buffers of one stream (2.2, R29, R31, R32). -/
structure BufferLaw (st : Stream) : Prop where
  /-- the parameters are in range (R4) -/
  inRange : st.inRange
  /-- the states of its direction (2.2) -/
  suits : ∀ b ∈ st.buffers, b.suits st.dir = true
  /-- a packet never holds more than L bytes (R29) -/
  fits : ∀ b ∈ st.buffers, b.count ≤ st.maxLen
  /-- at most one buffer is FILLING or RECEIVING (R32) -/
  oneFilling : st.buffers.countP (fun b => b.isFilling || b.isReceiving) ≤ 1
  /-- at most one is DRAINING (R32) -/
  oneDraining : st.buffers.countP Buffer.isDraining ≤ 1
  /-- at most one is SENT (R32) -/
  oneSent : st.buffers.countP Buffer.isSent ≤ 1
  /-- the queue holds each queued buffer once, and no other -/
  queueNodup : st.queue.Nodup
  queued : ∀ k, k ∈ st.queue ↔ (st.buffer k).isQueued = true
  /-- a SENT or DRAINING buffer is at the head of its queue (R36, R40) -/
  head : ∀ k, (st.buffer k).isSent = true ∨ (st.buffer k).isDraining = true → st.queue.head? = some k
  /-- an OUT stream has no receive records or writes, an IN stream no send records or reads (3.2, 4.2) -/
  ofDirection : match st.dir with
    | .outbound => st.receives = [] ∧ st.writes = []
    | .inbound => st.sends = [] ∧ st.reads = []

/-- The laws of the packet store, with the frame that arrives and the frame on the lane. -/
structure StoreLaw (s : State) : Prop where
  buffers : ∀ i, ∀ st ∈ s.body.stream i, BufferLaw st
  /-- a RECEIVING buffer is the one claimed by the frame that is arriving (R38, R39) -/
  receiving : ∀ i, ∀ st ∈ s.body.stream i, ∀ k, (st.buffer k).isReceiving = true →
    (s.body.rx.map fun r => (r.header.stream, r.claim)) = some (i, some k)
  /-- that frame's stream is open and takes a frame of its length (R38) -/
  claimed : ∀ r ∈ s.body.rx, ∀ k ∈ r.claim, ∃ st, s.body.stream r.header.stream = some st ∧
    (st.buffer k).isReceiving = true ∧ r.header.length ≤ st.maxLen ∧ r.header.cls = st.cls ∧ st.dir = .inbound
  /-- a DATA frame on the lane is sent from a buffer of an OUT stream that is COMMITTED or SENT (R112) -/
  lane : ∀ h k p, s.body.lt.lane = some (.data h k p) → ∃ st, s.body.stream h.stream = some st ∧
    (st.buffer k).isQueuedOut = true

/-- The laws of the block map (2.1, R28, R30): an open stream owns the blocks that R8 gives it, a CLOSED stream none,
and no two blocks have one owner. -/
structure BlockLaw (s : State) : Prop where
  owned : ∀ i, s.body.blocks.toList.countP (ownedBy i) =
    match s.body.stream i with
    | some st => blocksNeeded st.maxLen st.buffers.length
    | none => 0
  owners : (s.body.blocks.toList.filterMap id).Nodup

/-! ### Reservations -/

/-- The reserved sum never exceeds the reservable amount of the period in force (R7, R108); a stream HALTING or HALTED
has a halt cause (1.1), so that no close or flush of it takes a reservation up again. -/
structure ReservationLaw (s : State) : Prop where
  fits : s.body.reservedSum ≤ s.ce.inForce.reservable
  caused : ∀ i, ∀ st ∈ s.body.stream i, st.state = .halting ∨ st.state = .halted → st.cause.isSome = true

/-! ### Words for statements about requests -/

/-- The part is RUNNING, the admin ring has one fetch in flight, for the record at its taken position, and no record of
it is held. The record that this fetch returns is the next request. -/
def State.awaitsRequest (s : State) (ring : HostRing) : Prop :=
  s.fn = .running ∧ s.body.admin = some ring ∧ ring.lawful ∧ 0 < ring.pendingCount ∧
    ring.fetches = [{ position := ring.taken, dropped := false }] ∧ ring.returned = []

/-- The part once that record has been taken: the ring has moved on and the request is in the table (R157, R168). -/
def State.withRequest (s : State) (ring : HostRing) (r : AdminRecord) (admitted : Bool) : State :=
  s.onBody fun b => { b with
    admin := some { ring with fetches := [], taken := (ring.taken + 1) % ring.size }
    table := b.table ++ [entryOf b.nextId ring.taken r admitted]
    nextId := b.nextId + 1 }

/-- What follows in the same event once a request has been carried out or refused: the actions it set off run, and the
event settles. -/
def State.followed (s : State) : State := (s.onBody (Body.runStreams s.env)).settle

/-- The command completes its request at once: the record is taken as the entry's request, which completes with this
status and result, and nothing else happens but what follows from that. -/
def State.completesWith (s : State) (c : Instr) (ring : HostRing) (r : AdminRecord) (admitted : Bool) (status : Status)
    (result : Nat) : Prop :=
  exec c s = .next (((s.withRequest ring r admitted).finish s.body.nextId status result).followed)

/-- The command's request is admitted, and what is carried out of it is `effect`. -/
def State.carriesOut (s : State) (c : Instr) (ring : HostRing) (r : AdminRecord) (effect : State → State) : Prop :=
  exec c s = .next (effect (s.withRequest ring r true)).followed

/-- No entry of the in-flight table holds the claim of stream `i` (R170). -/
def State.unclaimed (s : State) (i : StreamId) : Prop := ∀ e ∈ s.body.table, e.claim = true → e.stream ≠ some i

/-- No entry of the in-flight table is a link request (R171). -/
def State.noLinkRequest (s : State) : Prop := ∀ e ∈ s.body.table, isLinkCode e.code = false

/-- The part is RUNNING, the signal is there and the link is UP: frames are heard and acted on (R111, R146). -/
def State.receives (s : State) : Prop := s.fn = .running ∧ s.lsig = true ∧ s.bp.link = .up

/-- The part with stream `i`, which was `old`, changed to `new` in one store event, and nothing else changed but what the
store event itself does: the stream's watch is evaluated (R89), and a DATA frame sent from a buffer that has become FREE
is cut (R112). -/
def State.withStream (s : State) (i : StreamId) (old new : Stream) : State := s.onBody (Body.put i old new)

/-- The part with a control frame that has become due (R112). -/
def State.withDue (s : State) (f : ControlFrame) : State := s.onBody (Body.addDue f)

/-- The part with an event raised (R174). -/
def State.withEvent (s : State) (source : Option StreamId) (detail : Detail) : State :=
  s.onBody (Body.raise source detail)

/-- The part FAULTED with this code, all else as it stood but for a held STOP and the frame under way (R182). -/
def State.faulted (s : State) (code : FaultCode) : State :=
  { s with
    fn := .faulted, fault := some code, heldStop := false
    body := { s.body with lt := { s.body.lt with lane := none } } }

end Sys2Proof.Machine
end

