-- ==== Sys2Proof/Certificates/Slice0/Obligations.lean ====
section
/-! DEFINITION. The statements for the provers. Commands act by their own effect, written out here, and by what follows
from it in the same event, which is `State.settle` (and for a request taken from the admin ring `State.followed`): so an
effect is stated as the state that settles. What settling may change is a statement of its own. -/

open Sys2Proof Sys2Proof.Machine

/-! ### Steps -/

/-- One step carries out the command at the front of the queue on the part with the rest of the queue. -/
def Obligations.StepRunsTheFrontCommand : Prop :=
  ∀ (c : Instr) (rest : List Instr) (s : State),
    step { s with pending := c :: rest } = exec c { s with pending := rest }

/-- With no command waiting, 1 µs passes and the timers that have come to their time send their commands; in FAULTED
nothing happens. The model's choice: notes/assumptions/7.md. -/
def Obligations.EmptyQueueLetsTimePass : Prop :=
  ∀ s : State, s.pending = [] →
    (s.fn = .faulted → step s = .next s) ∧
    (s.fn ≠ .faulted → ∃ cs, step s = .next { s with now := s.now + 1, pending := cs } ∧
      ∀ c, c ∈ cs ↔
        (c = .leaderPeriodExpiry ∧ ∃ t, s.ce.periodEnds = some t ∧ t ≤ s.now + 1) ∨
        (c = .followerDeadline ∧ ∃ t, s.ce.expected = some t ∧ t + s.ce.inForce.grace ≤ s.now + 1) ∨
        (c = .bringUpTimerExpiry ∧ ∃ t, s.bp.bringUpEnds = some t ∧ t ≤ s.now + 1) ∨
        (c = .answerTimerExpiry ∧ ∃ o t, s.bp.outgoing = some o ∧ o.timer = some t ∧ t ≤ s.now + 1) ∨
        (c = .helloTimerExpiry ∧ ∃ t, s.bp.helloEnds = some t ∧ t ≤ s.now + 1))

/-! ### Resets, START and STOP -/

/-- POWER_ON_RESET and RESET give every block its reset value; RESET keeps the control block address. The laws that
every step keeps hold of the part right after reset. The timebase, the signal, the entry identities and the frame
arriving after a reset are the model's: notes/assumptions/3.md, 9.md, 10.md and 11.md. -/
def Obligations.ResetsGiveEveryBlockItsResetValue : Prop :=
  (∀ s : State, exec .powerOnReset s = .next { State.reset with
    lsig := s.lsig, bp := { State.reset.bp with signal := s.lsig }, pending := s.pending }) ∧
  (∀ s : State, exec .reset s = .next { State.reset with
    lsig := s.lsig, bp := { State.reset.bp with signal := s.lsig }, pending := s.pending, cbLo := s.cbLo,
    cbHi := s.cbHi, now := s.now }) ∧
  IdleBody State.reset.body ∧ freeCount State.reset.body.blocks = 96 ∧ State.reset.body.lt.roundRobin = 15 ∧
  State.reset.fn = .off ∧ State.reset.fault = none ∧ State.reset.cbLo = 0 ∧ State.reset.cbHi = 0 ∧
  State.reset.bp.link = .down ∧ State.reset.bp.peerProfile = none ∧ State.reset.bp.lastDown = none ∧
  State.reset.bp.localProfile.length = 8 ∧ State.reset.ce.role = none ∧ State.reset.ce.inForce = .us125 ∧
  State.reset.ce.cycle = 0 ∧ State.reset.ce.sync = .unlocked ∧
  LinkLaw State.reset ∧ FunctionLaw State.reset ∧ EventLaw State.reset ∧ TransferLaw State.reset ∧
  RingLaw State.reset ∧ StoreLaw State.reset ∧ BlockLaw State.reset ∧ ReservationLaw State.reset

/-- START in OFF makes the function state STARTING, or FAULTED where the control block address is no multiple of 64; in
every other function state it has no effect of its own. The end of the control block read: a valid block configures the
rings and starts the part, an invalid one or an error response faults it; a held STOP is applied at once. In any other
function state the end has no effect of its own. A block is valid when the ring count and the size and base of every
ring it configures are in range. -/
def Obligations.StartReadsTheControlBlock : Prop :=
  (∀ s : State,
      (s.fn = .off → (s.cbHi ++ s.cbLo).toNat % 64 = 0 → exec .start s = .next { s with fn := .starting }) ∧
      (s.fn = .off → (s.cbHi ++ s.cbLo).toNat % 64 ≠ 0 → exec .start s = .next (s.faulted .badControlBlock)) ∧
      (s.fn = .starting ∨ s.fn = .faulted → exec .start s = .next s) ∧
      (s.fn = .running ∨ s.fn = .stopping → exec .start s = .next s.settle)) ∧
  (∀ (s : State) (w : BitVec 1024),
      ((ControlBlock.read w).valid = true ↔
        let rings := (byteAt w 120).toNat
        let sized := fun (k : Nat) => ∃ n, 3 ≤ n ∧ n ≤ 12 ∧ fieldAt w k 2 = 2 ^ n
        let based := fun (k : Nat) => (addrAt w k).toNat % 64 = 0
        1 ≤ rings ∧ rings ≤ 4 ∧ sized 108 ∧ sized 118 ∧ based 0 ∧ based 8 ∧
        ∀ c, c < rings → sized (110 + 2 * c) ∧ based (16 + 8 * c)) ∧
      (s.fn = .starting → exec (.controlBlockReadEnd none) s = .next (s.faulted .badControlBlock)) ∧
      (s.fn = .starting → (ControlBlock.read w).valid = false →
        exec (.controlBlockReadEnd (some w)) s = .next (s.faulted .badControlBlock)) ∧
      (s.fn = .starting → (ControlBlock.read w).valid = true → ∃ t : State,
        t.fn = .running ∧ t.heldStop = false ∧ t.bp = s.bp ∧ t.ce = s.ce ∧ t.body.streams = s.body.streams ∧
        t.body.blocks = s.body.blocks ∧ t.body.table = s.body.table ∧ t.body.events = s.body.events ∧
        t.body.lt = s.body.lt ∧
        t.body.admin = some
          { base := addrAt w 0, size := fieldAt w 108 2, posted := 0, taken := 0, fetchPos := 0, fetches := [],
            returned := [] } ∧
        t.body.event = some
          { base := addrAt w 8, size := fieldAt w 118 2, put := 0, freed := 0, phase := true, armed := false,
            intAddr := addrAt w 80, intValue := wordAt w 104 } ∧
        (∀ c : Fin 4, t.body.completion[c] =
          if c.val < (byteAt w 120).toNat then some
            { ring :=
                { base := addrAt w (16 + 8 * c.val), size := fieldAt w (110 + 2 * c.val) 2, put := 0, freed := 0
                  phase := true, armed := false, intAddr := addrAt w (48 + 8 * c.val)
                  intValue := wordAt w (88 + 4 * c.val) }
              waiting := [] }
          else none) ∧
        (s.heldStop = false → exec (.controlBlockReadEnd (some w)) s = .next t.settle) ∧
        (s.heldStop = true → exec (.controlBlockReadEnd (some w)) s = exec .stop t)) ∧
      (∀ r, s.fn = .off ∨ s.fn = .faulted → exec (.controlBlockReadEnd r) s = .next s) ∧
      (∀ r, s.fn = .running ∨ s.fn = .stopping → exec (.controlBlockReadEnd r) s = .next s.settle))

/-- STOP is held in STARTING, applied in RUNNING and ignored elsewhere. Applied, it aborts every open stream, takes
the link DOWN with cause REQUESTED and from UP makes a FAREWELL due, completes ABORTED every request that has no
memory transfer in flight, and discards the admin records that were returned, those held behind a fetch still in
flight at once: notes/assumptions/57.md, the model's choice. -/
def Obligations.StopIsHeldOrApplied : Prop :=
  ∀ s : State,
    (s.fn = .off ∨ s.fn = .faulted → exec .stop s = .next s) ∧
    (s.fn = .stopping → exec .stop s = .next s.settle) ∧
    (s.fn = .starting → exec .stop s = .next { s with heldStop := true }) ∧
    (s.fn = .running → ∃ t : State, exec .stop s = .next t.settle ∧ t.fn = .stopping ∧
      (∀ i : StreamId, t.body.stream i = none ↔ s.body.stream i = none) ∧
      (∀ (i : StreamId) (st st' : Stream), s.body.stream i = some st → t.body.stream i = some st' →
        st'.state = .aborting ∧ (st.state ≠ .aborting → st'.sentIndex = none) ∧ st'.ring = st.ring ∧
          st'.sends = st.sends ∧ st'.receives = st.receives ∧ st'.held = st.held) ∧
      t.bp.link = .down ∧ (s.bp.link ≠ .down → t.bp.lastDown = some .requested) ∧
      (s.bp.link = .down → t.bp = s.bp ∧ t.body.lt.fresh = s.body.lt.fresh) ∧
      (s.bp.link = .up → t.body.lt.fresh = [.farewell] ∧ t.body.lt.lane = none) ∧
      (∀ e ∈ s.body.table, e.held = none → e.work = Work.none → e.complete .aborted 0 ∈ t.body.table) ∧
      (∀ e ∈ s.body.table, e.held ≠ none → e ∈ t.body.table) ∧
      t.body.admin = s.body.admin.map HostRing.discard)

/-- The register window: what a write at each offset does, and what a read then returns. -/
def Obligations.RegisterWindow : Prop :=
  ∀ (s : State) (offset value : Word),
    exec (.registerWrite 0x04 value) s = .next { s with cbLo := value } ∧
    exec (.registerWrite 0x08 value) s = .next { s with cbHi := value } ∧
    (value.toNat % 4 = 1 → exec (.registerWrite 0x0C value) s = exec .start s) ∧
    (value.toNat % 4 = 2 → exec (.registerWrite 0x0C value) s = exec .stop s) ∧
    (value.toNat % 4 = 3 → exec (.registerWrite 0x0C value) s = exec .reset s) ∧
    (value.toNat % 4 = 0 → exec (.registerWrite 0x0C value) s = .next s) ∧
    exec (.registerWrite 0x10 value) s = exec (.notify value) s ∧
    (offset ∉ [0x04#32, 0x08#32, 0x0C#32, 0x10#32] → exec (.registerWrite offset value) s = .next s) ∧
    s.readRegister 0x04 = s.cbLo ∧ s.readRegister 0x08 = s.cbHi ∧
    (s.readRegister 0x00).toNat % 65536 = 0x1C30 ∧ (s.readRegister 0x00).toNat / 2 ^ 24 = 0x49 ∧
    (s.readRegister 0x0C).toNat % 8 = s.fn.code ∧
    (s.readRegister 0x0C).getLsbD 3 = s.heldStop ∧
    (s.readRegister 0x0C).toNat / 256 = (s.fault.map FaultCode.code).getD 0 ∧
    (offset ∉ [0x00#32, 0x04#32, 0x08#32, 0x0C#32] → s.readRegister offset = 0)

/-! ### NOTIFY -/

/-- A producer NOTIFY of the admin ring or of an open stream's work ring: posted becomes the index, the fetch position
does not pass it, and what lies outside the new span is cut off. The taken position does not move. The cut-off of
fetches in flight is the model's reading: notes/assumptions/22.md. -/
def Obligations.NotifyPostsRecords : Prop :=
  ∀ (s : State) (v : Word) (r : HostRing), s.fn = .running → (notifyIndex v).toNat < r.size →
    ∃ r' : HostRing, r'.posted = (notifyIndex v).toNat ∧ r'.taken = r.taken ∧ r'.size = r.size ∧ r'.base = r.base ∧
      r'.fetchPos = (if ringSub r.size r'.posted r.taken < ringSub r.size r.fetchPos r.taken then r'.posted
        else r.fetchPos) ∧
      (∀ p, p ∈ r'.returned ↔
        p ∈ r.returned ∧ ringSub r.size p.1 r.taken < ringSub r.size r'.posted r.taken) ∧
      (r'.fetches.map Fetch.position = r.fetches.map Fetch.position) ∧
      (∀ k : Nat, ∀ f ∈ r.fetches[k]?, ∃ f', r'.fetches[k]? = some f' ∧ (f'.dropped = true ↔
        f.dropped = true ∨ ringSub r.size r'.posted r.taken ≤ ringSub r.size f.position r.taken)) ∧
      (notifyRing v = 0 → s.body.admin = some r →
        exec (.notify v) s = .next (State.settle { s with body := { s.body with admin := some r' } })) ∧
      (∀ (i : StreamId) (st : Stream), notifyRing v = i.val + 1 → s.body.stream i = some st → st.ring = r →
        exec (.notify v) s = .next (s.withStream i st { st with ring := r' }).settle)

/-- A consumer NOTIFY in span of a part-written ring: freed becomes the index, the ARM flag arms the ring, and an ARMED
ring with entries unconsumed sends its interrupt message and becomes DISARMED. A bad NOTIFY changes nothing and raises
BAD_NOTIFY with the ring number and the index, in STOPPING too for a part-written ring; a NOTIFY that is not decoded
changes nothing. -/
def Obligations.NotifyFreesEntriesOrIsBad : Prop :=
  (∀ (s : State) (v : Word) (r : PartRing), s.fn = .running ∨ s.fn = .stopping →
      (notifyIndex v).toNat < r.size →
      ringSub r.size (notifyIndex v).toNat r.freed ≤ ringSub r.size r.put r.freed →
      ∃ (r' : PartRing) (message : List RingWrite),
        (if (r.armed = true ∨ notifyArm v = true) ∧ r.put ≠ (notifyIndex v).toNat then
          r' = { r with freed := (notifyIndex v).toNat, armed := false } ∧
            message = [{ kind := .interrupt, addr := r.intAddr, data := le 4 r.intValue.toNat }]
        else r' = { r with freed := (notifyIndex v).toNat, armed := r.armed || notifyArm v } ∧ message = []) ∧
        (∀ (c : Fin 4) (cr : CompletionRing), notifyRing v = 17 + c.val → s.body.completion[c] = some cr → cr.ring = r →
          exec (.notify v) s = .next (State.settle { s with body := { s.body with
            completion := s.body.completion.set c (some { cr with ring := r' })
            ringWrites := s.body.ringWrites ++ message } })) ∧
        (notifyRing v = 21 → s.body.event = some r →
          exec (.notify v) s = .next (State.settle { s with body := { s.body with
            event := some r', ringWrites := s.body.ringWrites ++ message } }))) ∧
  (∀ (s : State) (v : Word),
      (s.fn = .off ∨ s.fn = .starting ∨ s.fn = .faulted → exec (.notify v) s = .next s) ∧
      (s.fn = .stopping → notifyRing v ≤ 16 → exec (.notify v) s = .next s.settle) ∧
      let badAmongRead := 21 < notifyRing v ∨
        (notifyRing v = 0 ∧ ∃ r, s.body.admin = some r ∧ r.size ≤ (notifyIndex v).toNat) ∨
        (∃ i : StreamId, notifyRing v = i.val + 1 ∧ s.body.stream i = none) ∨
        (∃ (i : StreamId) (st : Stream), notifyRing v = i.val + 1 ∧ s.body.stream i = some st ∧
          st.ring.size ≤ (notifyIndex v).toNat)
      let badAmongWritten := (∃ c : Fin 4, notifyRing v = 17 + c.val ∧ s.body.completion[c] = none) ∨
        (∃ (c : Fin 4) (cr : CompletionRing), notifyRing v = 17 + c.val ∧ s.body.completion[c] = some cr ∧
          (cr.ring.size ≤ (notifyIndex v).toNat ∨ ringSub cr.ring.size cr.ring.put cr.ring.freed <
            ringSub cr.ring.size (notifyIndex v).toNat cr.ring.freed)) ∨
        (∃ r, notifyRing v = 21 ∧ s.body.event = some r ∧ (r.size ≤ (notifyIndex v).toNat ∨
          ringSub r.size r.put r.freed < ringSub r.size (notifyIndex v).toNat r.freed))
      ((s.fn = .running ∧ badAmongRead) ∨ ((s.fn = .running ∨ s.fn = .stopping) ∧ badAmongWritten) →
        exec (.notify v) s = .next (s.withEvent none (.badNotify (notifyRing v) (notifyIndex v))).settle))

/-! ### Faults and settling -/

/-- In FAULTED the part acts on nothing but resets and writes of its registers; the input may move. -/
def Obligations.FaultedPartActsOnNothing : Prop :=
  ∀ (c : Instr) (s : State), s.fn = .faulted →
    match c with
    | .powerOnReset => ∃ t : State, exec c s = .next t ∧ t.fn = .off ∧ t.fault = none
    | .reset => ∃ t : State, exec c s = .next t ∧ t.fn = .off ∧ t.fault = none
    | .registerWrite offset value => offset ∉ [0x04#32, 0x08#32, 0x0C#32] ∨ (offset = 0x0C ∧ value.toNat % 4 ≠ 3) →
      exec c s = .next s
    | .lossOfSignal => exec c s = .next { s with lsig := false }
    | .signalPresent => exec c s = .next { s with lsig := true }
    | _ => exec c s = .next s

/-- A failed access of the Ring Interface faults the part: a write of a completion, an event or an interrupt message
with POST_WRITE, an admin fetch in RUNNING with ADMIN_FETCH; the rest of the part stands as it was. Which write an end
belongs to is the model's reading: notes/assumptions/12.md. -/
def Obligations.FailedRingAccessFaultsThePart : Prop :=
  ∀ (s : State) (w : RingWrite), s.fn = .running ∨ s.fn = .stopping →
    (∀ src, s.body.ringWrites.find? RingWrite.isCompletion = some w → w.kind = .completion src →
      exec (.completionWriteEnd false) s = .next (s.faulted .postWrite)) ∧
    (s.body.ringWrites.find? (fun x => x.kind == .event) = some w →
      exec (.eventWriteEnd false) s = .next (s.faulted .postWrite)) ∧
    (s.body.ringWrites.find? (fun x => x.kind == .interrupt) = some w →
      exec (.interruptMessageWriteEnd false) s = .next (s.faulted .postWrite)) ∧
    (∀ (ring : HostRing) (slot : Nat), s.fn = .running → s.body.admin = some ring → slot < ring.fetches.length →
      exec (.adminFetchReturn slot none) s = .next (s.faulted .adminFetch))

/-- What settling does and what it leaves alone. In RUNNING it takes the actions of every stream, in increasing stream
number, each stream's one after another while one is enabled; then the completions formed join their rings' waiting lists
and are written as far as there is space, due frames are put in order and the next one starts on a free lane, the pending
events are written, and admin records are fetched. It leaves alone the link, the cycle engine, the registers and the queue
always; everything in the function states in which the part does not act; and of a stream its parameters. It opens no
stream, and only the end of a stop changes the function state: STOPPING becomes OFF, and the rings unconfigured, once
every stream is CLOSED, every request and every write of the Ring Interface has ended, and no FAREWELL or admin fetch is
left. That what follows an event is one settling, and its order, are the model's choice, and that a stream takes fewer
than 256 actions in it its reading: notes/assumptions/5.md and 6.md. -/
def Obligations.SettlingLeavesAlone : Prop :=
  (∀ s : State, s.fn = .running → s.settle = { s with body := s.body.settle s.env } ∧
    s.env = { running := true, serving := true, up := s.bp.link == .up, cycle := s.ce.cycle }) ∧
  (∀ (env : Env) (b : Body),
    let posted := (List.finRange 4).foldl (fun b c => b.issueCompletions 24 c) (b.runStreams env).joinAll
    let started := posted.mergeDue.startFrame env
    b.settle env = (started.issueEvents started.events.length).fetchAdmin env 8 ∧
    b.runStreams env = (List.finRange 16).foldl (fun b i => b.runStream env 256 i) b) ∧
  (∀ (env : Env) (n : Nat) (i : StreamId) (b : Body),
    (b.stream i = none → b.runStream env n i = b) ∧
    ∀ st, b.stream i = some st →
      (st.internal env i = none → b.runStream env n i = b) ∧
      ∀ st' effect, st.internal env i = some (st', effect) →
        b.runStream env (n + 1) i = ((b.put i st st').applyEffect env i st' effect).runStream env n i) ∧
  (∀ (env : Env) (i : StreamId) (st : Stream),
    let silent := fun (o : Option Stream) => o.map fun st' => (st', Effect.none)
    let actions := [silent (st.leaveOne i), silent st.placeOne, silent st.dropReturned, st.wind i, st.handOn env,
      silent st.assembleOne, silent st.closeCommit, silent st.takeHeld, silent st.issueWrite, silent (st.fetchOne env)]
    (st.internal env i = none ↔ ∀ o ∈ actions, o = none) ∧
    (∀ x, st.internal env i = some x ↔
      ∃ before after, actions = before ++ some x :: after ∧ ∀ o ∈ before, o = none) ∧
    ∀ b : Body, b.applyEffect env i st .none = b ∧
      ∀ cause, b.applyEffect env i st (.halted cause) = b.raise (some i) (.streamHalted cause)) ∧
  ∀ s : State, s.settle.bp = s.bp ∧ s.settle.ce = s.ce ∧ s.settle.cbLo = s.cbLo ∧ s.settle.cbHi = s.cbHi ∧
    s.settle.now = s.now ∧ s.settle.lsig = s.lsig ∧ s.settle.fault = s.fault ∧ s.settle.heldStop = s.heldStop ∧
    s.settle.pending = s.pending ∧
    (s.fn ≠ .running → s.fn ≠ .stopping → s.settle = s) ∧
    (s.fn = .running → s.settle.fn = .running) ∧
    (s.fn = .stopping → ∀ b, b = s.body.settle s.env →
      let done := b.allClosed ∧ b.table = [] ∧ b.ringWrites = [] ∧ (∀ r, b.admin = some r → r.fetches = []) ∧
        (∀ f ∈ b.lt.due ++ b.lt.fresh, f.isFarewell = false) ∧ b.lt.lane ≠ some (.control .farewell)
      (done → s.settle = { s with
        fn := .off
        body := { b with
          admin := none, completion := Vector.replicate 4 none, event := none, events := []
          lt := { b.lt with due := [], fresh := [], lane := none } } }) ∧
      (¬done → s.settle = { s with body := b })) ∧
    ∀ (i : StreamId) (st' : Stream), s.settle.body.stream i = some st' → ∃ st : Stream, s.body.stream i = some st ∧
      st'.dir = st.dir ∧ st'.cls = st.cls ∧ st'.maxLen = st.maxLen ∧ st'.perCycle = st.perCycle ∧
      st'.bound = st.bound ∧ st'.buffers.length = st.buffers.length ∧ st'.ring.base = st.ring.base ∧
      st'.ring.size = st.ring.size ∧ st'.ring.posted = st.ring.posted

/-! ### Admin requests -/

/-- An admin request's record is read as it was written, and a request command is the record that the oldest fetch in
flight which no NOTIFY has cut off returns. The choice of that fetch is the model's: notes/assumptions/8.md. A record
whose turn has not come is held for its position, and one that a NOTIFY has cut off is dropped; that it is dropped for
good, and that a fetch is named by its place, are the model's reading: notes/assumptions/22.md and 14.md. -/
def Obligations.RequestsAreTheirRecords : Prop :=
  (∀ r : AdminRecord, AdminRecord.read r.bits = r) ∧
  (∀ (field : Byte) (tag : Tag) (p : OpenParams), (AdminRecord.ofOpen field tag p).openParams = p) ∧
  (∀ (s : State) (ring : HostRing) (slot : Nat) (f : Fetch) (w : BitVec 256), s.fn = .running →
    s.body.admin = some ring → ring.fetches[slot]? = some f → f.dropped = true ∨ f.position ≠ ring.taken →
    (∀ p ∈ ring.returned, p.1 ≠ ring.taken) →
    exec (.adminFetchReturn slot (some w)) s = .next (State.settle (s.onBody fun b => { b with
      admin := some { ring with
        fetches := ring.fetches.eraseIdx slot
        returned := if f.dropped then ring.returned else ring.returned ++ [(f.position, w)] } }))) ∧
  ∀ (s : State) (ring : HostRing) (slot : Nat), s.body.admin = some ring →
    ring.fetches.findIdx? (fun f => !f.dropped) = some slot →
    ∀ (tag : Tag) (i x y z : Byte) (p : OpenParams) (a : Addr) (u v : Word),
      let same := fun (c : Instr) (r : AdminRecord) => exec c s = exec (.adminFetchReturn slot (some r.bits)) s
      let plain := fun (code : Byte) => AdminRecord.plain code i tag
      let device := fun (code : Byte) => AdminRecord.plain code 0 tag
      same (.openStream tag i p) (.ofOpen i tag p) ∧ same (.closeStream tag i) (plain 2) ∧
      same (.abortStream tag i) (plain 3) ∧ same (.flushStream tag i) (plain 4) ∧ same (.resumeStream tag i) (plain 5) ∧
      same (.setWatch tag i x y z u) { plain 6 with p0 := x, p1 := y, p2 := z, w1 := u } ∧
      same (.queryStream tag i a) { plain 7 with addr := a } ∧
      same (.linkUp tag x u v) { device 8 with p0 := x, w1 := u, w2 := v } ∧ same (.linkDown tag) (device 9) ∧
      same (.loadProfile tag a u) { device 10 with addr := a, w1 := u } ∧
      same (.readPeerProfile tag a u) { device 11 with addr := a, w1 := u } ∧
      same (.queryLink tag a) { device 12 with addr := a }

/-- The admission of a record that a fetch returns: the first refusal that applies completes it at once. A link request
in the table counts also once it is refused, and a LINK_DOWN that finds a LINK_UP and another LINK_DOWN is refused:
notes/assumptions/28.md and 54.md, the latter the model's choice. -/
def Obligations.AdmissionRefusesInOrder : Prop :=
  ∀ (s : State) (ring : HostRing) (w : BitVec 256), s.awaitsRequest ring →
    let r := AdminRecord.read w
    let refused := fun (status : Status) => s.completesWith (.adminFetchReturn 0 (some w)) ring r false status 0
    (r.code.toNat < 1 ∨ 12 < r.code.toNat ∨ r.reservedZero = false → refused .badRequest) ∧
    (r.wellFormed = true → r.code.toNat ≤ 7 → 15 < r.field.toNat → refused .badStream) ∧
    (r.wellFormed = true → r.code.toNat ≤ 5 → ∀ i : StreamId, i.val = r.field.toNat →
      (∃ e ∈ s.body.table, e.claim = true ∧ e.stream = some i ∧ ¬(r.code = 3 ∧ (e.code = 2 ∨ e.code = 4))) →
      refused .streamBusy) ∧
    (r.wellFormed = true → r.code = 8 ∨ r.code = 9 →
      (∃ e ∈ s.body.table, (e.code = 8 ∨ e.code = 9) ∧ ¬(r.code = 9 ∧ e.code = 8)) → refused .wrongState)

/-- OPEN_STREAM applies its six checks in order, and the first that fails gives the refusal; the context is left as it
was. The parameters in range are those of R4. A profile admits a stream when it has an entry for its number whose
direction, class and limits suit it (R6); the peer's direction is the opposite one, and no peer profile admits none. -/
def Obligations.OpenStreamChecksInOrder : Prop :=
  ∀ (s : State) (ring : HostRing) (tag : Tag) (stream : Byte) (i : StreamId) (p : OpenParams),
    s.awaitsRequest ring → i.val = stream.toNat → s.unclaimed i →
    let c := Instr.openStream tag stream p
    let r := AdminRecord.ofOpen stream tag p
    let st := Stream.opened s.isUp p
    let refused := fun (status : Status) => s.completesWith c ring r true status 0
    let inRange :=
      (p.dir = 1 ∨ p.dir = 2) ∧ (p.packetLength.toNat % 4 = 0 ∧ 4 ≤ p.packetLength.toNat ∧ p.packetLength.toNat ≤ 1024) ∧
      (p.bufferCount = 2 ∨ p.bufferCount = 3 ∨ p.bufferCount = 4) ∧
      ((p.cls = 1 ∧ (p.perCycle = 1 ∨ p.perCycle = 2 ∨ p.perCycle = 3)) ∨ (p.cls = 2 ∧ p.perCycle = 0)) ∧
      p.base.toNat % 64 = 0 ∧ (∃ n, 3 ≤ n ∧ n ≤ 12 ∧ p.size.toNat = 2 ^ n) ∧
      p.ring.toNat < s.body.completion.toList.countP Option.isSome
    let admits := fun (profile : List Byte) (dir : Nat) =>
      let byte := fun (k : Nat) => (profile.getD k 0).toNat
      ∃ k, k < byte 2 ∧
        let entry := 8 + (byte 3 + 3) / 4 * 4 + 12 * k
        byte entry = i.val ∧ byte (entry + 1) = dir ∧ byte (entry + 2) = st.cls.code ∧
          st.maxLen ≤ byte (entry + 4) + 256 * byte (entry + 5) ∧ (st.cls = .scheduled → st.perCycle ≤ byte (entry + 3))
    let inProfile := admits s.bp.localProfile st.dir.code
    let matched := s.bp.link = .up → ∃ p, s.bp.peerProfile = some p ∧ admits p (3 - st.dir.code)
    let fits := st.cls = .scheduled → st.dir = .outbound →
      s.body.reservedSum + st.perCycle * (st.maxLen + 12) ≤ s.ce.inForce.reservable
    let room := (if st.maxLen ≤ 512 then st.buffers.length else 2 * st.buffers.length) ≤ freeCount s.body.blocks
    (s.body.stream i ≠ none → refused .wrongState) ∧
    (s.body.stream i = none →
      (¬inRange → refused .badRequest) ∧
      (inRange → ¬inProfile → refused .notInProfile) ∧
      (inRange → inProfile → ¬matched → refused .profileMismatch) ∧
      (inRange → inProfile → matched → ¬fits → refused .noBandwidth) ∧
      (inRange → inProfile → matched → fits → ¬room → refused .noStore) ∧
      (inRange → inProfile → matched → fits → room →
        s.carriesOut c ring r fun t => (t.onBody (Body.openAt s.isUp i st)).finish s.body.nextId .ok 0))

/-- An accepted OPEN_STREAM gives the stream its blocks, the lowest-numbered free ones, to its buffers in the order
taken, one or two to each, and its context, and with the link UP places a NOTICE(OPENED). The release of a stream
gives every block back, withdraws a pending SCHEDULE_MISS, drops the claim of a frame that is arriving for the stream
(what decides the frame if the stream is opened again: notes/assumptions/58.md), cuts the stream's DATA frame under
way, with the link UP places a NOTICE(CLOSED), and completes the ABORT_STREAM or CLOSE_STREAM with the taken position,
or a close of an IN stream with the bytes discarded (notes/assumptions/31.md). -/
def Obligations.OpeningAndReleaseOfAStream : Prop :=
  (∀ (up : Bool) (i : StreamId) (p : OpenParams) (dir : Direction) (cls : StreamClass) (b : Body),
      Direction.ofCode p.dir = some dir → StreamClass.ofCode p.cls = some cls →
      (∀ o ∈ b.blocks.toList, ownedBy i o = false) →
      let st := Stream.opened up p
      let needed := if st.maxLen ≤ 512 then p.bufferCount.toNat else 2 * p.bufferCount.toNat
      needed ≤ freeCount b.blocks →
      let t := b.openAt up i st
      st = { state := .active, dir := dir, cls := cls, maxLen := p.packetLength.toNat, perCycle := p.perCycle.toNat,
             bound := Fin.ofNat 4 p.ring.toNat, cause := none,
             seq := (match cls, dir with
               | .bestEffort, .outbound => .bestEffortOut false false 0
               | .bestEffort, .inbound => .bestEffortIn false
               | .scheduled, .outbound => .scheduledOut 0
               | .scheduled, .inbound => .scheduledIn 0 false true),
             held := none, profileChecked := up, buffers := List.replicate p.bufferCount.toNat .free, queue := [],
             sends := [], receives := [], bad := none, failed := none, reads := [], writes := [], writeFailed := false,
             watch := none,
             ring := { base := p.base, size := p.size.toNat, posted := 0, taken := 0, fetchPos := 0, fetches := [],
                       returned := [] },
             request := none, stage := .idle, discarded := 0 } ∧
      t.stream i = some st ∧ (∀ j, j ≠ i → t.stream j = b.stream j) ∧
      (∀ k : Fin 96, b.blocks[k].isSome = true → t.blocks[k] = b.blocks[k]) ∧
      (∀ k : Fin 96, b.blocks[k] = none →
        let before := ((List.finRange 96).filter fun l => decide (l < k) && b.blocks[l].isNone).length
        t.blocks[k] =
          if needed ≤ before then none
          else if st.maxLen ≤ 512 then some { stream := i, buffer := before, second := false }
          else some { stream := i, buffer := before / 2, second := before % 2 == 1 }) ∧
      t.blocks.toList.countP (ownedBy i) = needed ∧
      (∀ k l : Fin 96, k < l → ownedBy i t.blocks[l] = true → t.blocks[k].isSome = true) ∧
      t.table = b.table ∧ t.events = b.events ∧
      (if up then t.lt.notices = b.lt.notices.filter (·.stream != i) ++
          [{ stream := i, closed := false, sends := 0, waited := false, due := true }] ∧
          ControlFrame.notice i 1 ∈ t.lt.fresh
        else t.lt = b.lt)) ∧
  (∀ (up : Bool) (i : StreamId) (st : Stream) (b : Body),
      let t := b.release up i st
      let ends := fun (e : Entry) => decide (e.held = none ∧ e.stream = some i ∧
        e.code = (if st.state = .aborting then 3 else 2))
      t.stream i = none ∧ (∀ j, j ≠ i → t.stream j = b.stream j) ∧
      (∀ k : Fin 96, t.blocks[k] = if ownedBy i b.blocks[k] then none else b.blocks[k]) ∧
      (∀ e, e ∈ t.events ↔ e ∈ b.events ∧ ¬(e.source = some i ∧ ∃ overrun, e.detail = .scheduleMiss overrun)) ∧
      (up = false → t.lt.notices = b.lt.notices ∧ t.lt.due = b.lt.due ∧ t.lt.fresh = b.lt.fresh) ∧
      (up = true → ControlFrame.notice i 2 ∈ t.lt.fresh ∧ t.lt.notices = b.lt.notices.filter (·.stream != i) ++
        [{ stream := i, closed := true, sends := 0, waited := false, due := true }]) ∧
      (∀ h k p, b.lt.lane = some (.data h k p) → t.lt.lane = if h.stream = i then none else b.lt.lane) ∧
      (b.rx = none → t.rx = none) ∧
      (∀ r, b.rx = some r → t.rx = some { r with claim := if r.header.stream = i then none else r.claim }) ∧
      t.table = b.table.map fun e => if ends e then e.complete .ok
        (if st.state ≠ .aborting ∧ st.dir = .inbound then st.discarded else st.ring.taken) else e)

/-- CLOSE_STREAM and FLUSH_STREAM are accepted in ACTIVE and HALTED, and refused WRONG_STATE elsewhere. A flush of an IN
stream discards its HELD packets at once and, if there was one, sets the gap pending flag. -/
def Obligations.CloseAndFlushBegin : Prop :=
  ∀ (s : State) (ring : HostRing) (tag : Tag) (stream : Byte) (i : StreamId),
    s.awaitsRequest ring → i.val = stream.toNat → s.unclaimed i →
    let close := AdminRecord.plain 2 stream tag
    let flush := AdminRecord.plain 4 stream tag
    (∀ st, s.body.stream i = some st → st.state = .active ∨ st.state = .halted →
      s.carriesOut (.closeStream tag stream) ring close (fun t => t.withStream i st
        { st with state := .closing, stage := .waiting, request := some .close, discarded := 0 }) ∧
      (st.dir = .outbound → s.carriesOut (.flushStream tag stream) ring flush (fun t => t.withStream i st
        { st with state := .flushing, stage := .waiting, request := some .flush, discarded := 0 })) ∧
      (st.dir = .inbound → s.carriesOut (.flushStream tag stream) ring flush (fun t => t.withStream i st
        { st with
          state := .flushing, stage := .waiting, request := some .flush
          discarded := ((st.buffers.filter Buffer.isHeld).map Buffer.count).sum
          buffers := st.buffers.map fun b => if b.isHeld then .free else b
          queue := st.queue.filter fun k => !(st.buffer k).isHeld
          seq := if st.buffers.any Buffer.isHeld then
              (match st.seq with
                | .scheduledIn expected _ first => .scheduledIn expected true first
                | q => q)
            else st.seq }))) ∧
    ((∀ st, s.body.stream i = some st → st.state ≠ .active ∧ st.state ≠ .halted) →
      s.completesWith (.closeStream tag stream) ring close true .wrongState 0 ∧
      s.completesWith (.flushStream tag stream) ring flush true .wrongState 0)

/-- ABORT_STREAM is accepted in every open state: the stream becomes ABORTING, abandons its SENT packet with its next
sequence bit as it is, and a FLUSH_STREAM or CLOSE_STREAM of the stream in flight completes OVERTAKEN. A CLOSED stream
refuses it WRONG_STATE. The count of an abandoned packet is the model's reading: notes/assumptions/20.md. -/
def Obligations.AbortStreamOvertakes : Prop :=
  ∀ (s : State) (ring : HostRing) (tag : Tag) (stream : Byte) (i : StreamId),
    s.awaitsRequest ring → i.val = stream.toNat → claimFree i 3 s.body.table = true →
    let c := Instr.abortStream tag stream
    let r := AdminRecord.plain 3 stream tag
    (s.body.stream i = none → s.completesWith c ring r true .wrongState 0) ∧
    (∀ st, s.body.stream i = some st → ∃ st' : Stream,
      st'.state = .aborting ∧ st'.stage = .waiting ∧ st'.request = none ∧ st'.sentIndex = none ∧
      (st.sentIndex = none → st'.buffers = st.buffers ∧ st'.queue = st.queue ∧ st'.seq = st.seq) ∧
      (∀ next flight n, st.sentIndex ≠ none → st.seq = .bestEffortOut next flight n →
        st'.seq = .bestEffortOut next false n) ∧
      (∀ k, (st.buffer k).isSent = false → st'.buffer k = st.buffer k) ∧
      st'.sends = st.sends ∧ st'.receives = st.receives ∧ st'.ring = st.ring ∧ st'.held = st.held ∧ st'.bad = st.bad ∧
      st'.reads = st.reads ∧ st'.writes = st.writes ∧ st'.cause = st.cause ∧
      s.carriesOut c ring r fun t => (t.withStream i st st').onBody fun b => { b with
        table := b.table.map fun e =>
          if e.held = none ∧ e.stream = some i ∧ (e.code = 2 ∨ e.code = 4) then e.complete .overtaken 0 else e })

/-- RESUME_STREAM applies its four checks in order; accepted, the halt cause becomes absent, the profile-check flag is
set and the state becomes ACTIVE, with the sequence state and the records as they stand. -/
def Obligations.ResumeStreamChecksInOrder : Prop :=
  ∀ (s : State) (ring : HostRing) (tag : Tag) (stream : Byte) (i : StreamId),
    s.awaitsRequest ring → i.val = stream.toNat → s.unclaimed i →
    let c := Instr.resumeStream tag stream
    let r := AdminRecord.plain 5 stream tag
    let refused := fun (status : Status) => s.completesWith c ring r true status 0
    (s.body.stream i = none → refused .wrongState) ∧
    (∀ st, s.body.stream i = some st →
      let allowed := peerAllows s.bp.peerProfile i st = true
      let fits := st.cls = .scheduled → st.dir = .outbound →
        s.body.reservedSum + st.perCycle * (st.maxLen + 12) ≤ s.ce.inForce.reservable
      (st.state ≠ .halted → refused .wrongState) ∧
      (st.state = .halted → s.bp.link ≠ .up → refused .linkNotUp) ∧
      (st.state = .halted → s.bp.link = .up → ¬allowed → refused .profileMismatch) ∧
      (st.state = .halted → s.bp.link = .up → allowed → ¬fits → refused .noBandwidth) ∧
      (st.state = .halted → s.bp.link = .up → allowed → fits → s.carriesOut c ring r fun t =>
        (t.withStream i st { st with state := .active, cause := none, profileChecked := true, stage := .idle }).finish
          s.body.nextId .ok 0))

/-- SET_WATCH applies its checks in order. With mode ON the watch takes the settings with the condition they give now,
an ON condition raises WATCH(ON), and the result is the condition; with mode OFF the settings are cleared and nothing is
raised. -/
def Obligations.SetWatchTakesTheSettings : Prop :=
  ∀ (s : State) (ring : HostRing) (tag : Tag) (stream mode dir measure : Byte) (threshold : Word) (i : StreamId),
    s.awaitsRequest ring → i.val = stream.toNat →
    let c := Instr.setWatch tag stream mode dir measure threshold
    let r : AdminRecord :=
      { AdminRecord.plain 6 stream tag with p0 := mode, p1 := dir, p2 := measure, w1 := threshold }
    let refused := fun (status : Status) => s.completesWith c ring r true status 0
    (s.body.stream i = none → refused .wrongState) ∧
    (∀ st, s.body.stream i = some st →
      (mode ≠ 0 → mode ≠ 1 → refused .badRequest) ∧
      (mode = 1 → 49152 < threshold.toNat ∨ (dir ≠ 1 ∧ dir ≠ 2) ∨ (measure ≠ 1 ∧ measure ≠ 2) → refused .badRequest) ∧
      (mode = 1 → measure = 2 → st.dir = .inbound → refused .badRequest) ∧
      (mode = 0 → s.carriesOut c ring r fun t =>
        (t.withStream i st { st with watch := none }).finish s.body.nextId .ok 0) ∧
      (mode = 1 → threshold.toNat ≤ 49152 → ∀ (d : WatchDirection) (m : Measure),
        (dir = 1 ∧ d = .atOrAbove) ∨ (dir = 2 ∧ d = .atOrBelow) →
        (measure = 1 ∧ m = .wholeStore) ∨ (measure = 2 ∧ m = .openPacket ∧ st.dir = .outbound) →
        ∃ condition : Bool,
          (condition = true ↔ match d with
            | .atOrAbove => threshold.toNat ≤ st.measure m
            | .atOrBelow => st.measure m ≤ threshold.toNat) ∧
          s.carriesOut c ring r fun t =>
            let set := t.withStream i st { st with
              watch := some { threshold := threshold.toNat, dir := d, measure := m, condition := condition } }
            (if condition then set.withEvent (some i) (.watch true) else set).finish s.body.nextId .ok
              (if condition then 1 else 0)))

/-- QUERY_STREAM and QUERY_LINK are refused BAD_REQUEST where the buffer passes beyond the top of the address space;
otherwise their snapshots, of 64 and 128 bytes, are taken in this event and begin to be written. -/
def Obligations.QueriesTakeSnapshots : Prop :=
  ∀ (s : State) (ring : HostRing) (tag : Tag) (stream : Byte) (i : StreamId) (addr : Addr),
    s.awaitsRequest ring → i.val = stream.toNat →
    let rs : AdminRecord := { AdminRecord.plain 7 stream tag with addr := addr }
    let rl : AdminRecord := { AdminRecord.plain 12 0 tag with addr := addr }
    let writing := fun (w : Work) (t : State) => t.onBody (Body.setWork s.body.nextId w)
    (2 ^ 64 < addr.toNat + 64 → s.completesWith (.queryStream tag stream addr) ring rs true .badRequest 0) ∧
    (addr.toNat + 64 ≤ 2 ^ 64 → s.carriesOut (.queryStream tag stream addr) ring rs
      (writing (.streamWrites addr (s.body.streamSnapshot i)))) ∧
    (2 ^ 64 < addr.toNat + 128 → s.completesWith (.queryLink tag addr) ring rl true .badRequest 0) ∧
    (addr.toNat + 128 ≤ 2 ^ 64 → s.carriesOut (.queryLink tag addr) ring rl fun t =>
      writing (.linkWrites addr t.linkSnapshot) t) ∧
    (s.body.streamSnapshot i).length = 64 ∧ s.linkSnapshot.length = 128

/-- The snapshots of QUERY_STREAM and QUERY_LINK lay the part's fields out as 11.4 gives them, byte by byte and bit by
bit; that of a CLOSED stream is zero but for its queued notice, in byte 47. The rows that a rule leaves to reading are
notes/assumptions/30.md, and how a bring-up time that is no whole number of ms is rounded stays open:
notes/assumptions/2.md. -/
def Obligations.SnapshotsLayOutTheFields : Prop :=
  (∀ (b : Body) (i : StreamId),
      let shot := b.streamSnapshot i
      let byte := fun (k : Nat) => shot.getD k 0
      let field := fun (k n : Nat) => (shot.drop k).take n
      let notice : Nat := match b.lt.notices.find? fun n => n.stream == i with
        | some n => (if n.closed then 2 else 1) + 16 * n.sends
        | none => 0
      (b.stream i = none → shot = List.replicate 47 0 ++ [BitVec.ofNat 8 notice] ++ List.replicate 16 0) ∧
      (∀ st, b.stream i = some st →
        let place : Option Nat := match b.completion[st.bound] with
          | some cr => cr.waiting.findIdx? (· == .stream i)
          | none => none
        field 0 4 = [BitVec.ofNat 8 st.state.code, BitVec.ofNat 8 ((st.cause.map HaltCause.code).getD 0),
          BitVec.ofNat 8 (st.dir.code + 4 * st.cls.code),
          BitVec.ofNat 8 (st.buffers.length + 8 * st.perCycle + 32 * st.bound.val)] ∧
        field 4 2 = le 2 st.maxLen ∧
        (byte 6).getLsbD 0 = st.profileChecked ∧ (byte 6).getLsbD 1 = st.bad.isSome ∧
        (byte 6).getLsbD 2 = st.held.isSome ∧ (byte 6).getLsbD 3 = place.isSome ∧
        byte 7 = BitVec.ofNat 8 (place.getD 0) ∧
        field 8 7 = le 2 (st.measure .wholeStore) ++ le 2 (st.measure .openPacket) ++
          [BitVec.ofNat 8 (st.sends.length + st.receives.length),
            BitVec.ofNat 8 (st.ring.fetches.length + 16 * st.ring.returned.length),
            BitVec.ofNat 8 ((st.reads.countP fun r => r.data.isNone) + st.writes.length)] ∧
        (st.watch = none → field 15 3 = [0, 0, 0]) ∧
        (∀ w, st.watch = some w → (byte 15).toNat < 16 ∧ (byte 15).getLsbD 0 = true ∧
          ((byte 15).getLsbD 1 = true ↔ w.dir = .atOrBelow) ∧ ((byte 15).getLsbD 2 = true ↔ w.measure = .openPacket) ∧
          (byte 15).getLsbD 3 = w.condition ∧ field 16 2 = le 2 w.threshold) ∧
        (st.dir = .outbound →
          (∀ e es, st.sends = e :: es →
            ((byte 6).getLsbD 4 = true ↔ e.confirmed = e.length ∧ (e.eom = true → e.markConfirmed = true)) ∧
            field 18 18 = le 2 e.position ++ le 4 e.length ++ le 4 e.requested ++ le 4 e.read ++ le 4 e.confirmed) ∧
          (st.sends = [] → (byte 6).getLsbD 4 = false ∧ field 18 18 = le 18 0) ∧
          (st.receives = [] → (byte 6).toNat / 32 = 0)) ∧
        (st.dir = .inbound →
          (byte 6).getLsbD 4 = false ∧
          (∀ e es, st.receives = e :: es →
            (byte 6).toNat / 32 % 4 = (if e.issued < e.capacity ∧ e.markIssued = false then 0
              else if e.written = e.issued ∧ (e.markIssued = true → e.markDelivered = true) then 2 else 1) ∧
            (byte 6).getLsbD 7 = e.gap ∧
            field 18 14 = le 2 e.position ++ le 4 e.capacity ++ le 4 e.issued ++ le 4 e.written) ∧
          (st.receives = [] → (byte 6).toNat / 32 = 0 ∧ field 18 14 = le 14 0) ∧
          (st.drainingIndex = none → field 32 4 = le 4 0) ∧
          (∀ k data mark value cycle gap written issued, st.drainingIndex = some k →
            st.buffer k = .draining data mark value cycle gap written issued → field 32 4 = le 4 written)) ∧
        field 36 8 = le 2 st.ring.size ++ le 2 st.ring.posted ++ le 2 st.ring.taken ++ le 2 st.ring.fetchPos ∧
        (match st.seq with
          | .bestEffortOut next flight count =>
            (byte 44).getLsbD 0 = next ∧ (byte 44).getLsbD 1 = flight ∧ (byte 44).toNat / 4 % 4 = 0 ∧
            field 45 2 = [0, BitVec.ofNat 8 count] ∧ (st.sentIndex = none → (byte 44).toNat / 16 = 0) ∧
            (∀ k data mark bit answer, st.sentIndex = some k → st.buffer k = .sent data mark bit answer →
              (byte 44).toNat / 16 = (match answer with
                | .awaiting0 => 1
                | .awaiting1 => 2
                | .deferred => 3
                | .due => 4))
          | .bestEffortIn expected => field 44 3 = [if expected then 1 else 0, 0, 0]
          | .scheduledOut counter => field 44 3 = [0, counter, 0]
          | .scheduledIn expected gap first =>
            field 44 3 = [BitVec.ofNat 8 ((if gap then 4 else 0) + (if first then 8 else 0)), expected, 0]) ∧
        byte 47 = BitVec.ofNat 8 notice ∧
        (st.buffers.length ≤ 4 → ∀ k, k < 4 →
          let shown := fun (state : Nat) (mark gap bit : Bool) (counter : Byte) =>
            [BitVec.ofNat 8 (state + (if mark then 8 else 0) + (if gap then 16 else 0) + (if bit then 32 else 0)), counter]
          let arrived := fun (state : Nat) (mark gap : Bool) (value : ArrivalValue) => match value with
            | .bit bit => shown state mark gap bit 0
            | .counter counter => shown state mark gap false counter
          field (48 + 4 * k) 4 = (match st.buffers[k]? with
            | some (.free) => shown 0 false false false 0 ++ le 2 0
            | some (.filling data) => shown 1 false false false 0 ++ le 2 data.length
            | some (.committed data mark) => shown 2 mark false false 0 ++ le 2 data.length
            | some (.sent data mark bit _) => shown 3 mark false bit 0 ++ le 2 data.length
            | some (.receiving data) => shown 4 false false false 0 ++ le 2 data.length
            | some (.held data mark value _ gap) => arrived 5 mark gap value ++ le 2 data.length
            | some (.draining data mark value _ gap _ _) => arrived 6 mark gap value ++ le 2 data.length
            | none => le 4 0)))) ∧
  (∀ s : State,
      let field := fun (k n : Nat) => (s.linkSnapshot.drop k).take n
      let ringBytes := fun (r : PartRing) (waiting : Nat) =>
        le 2 r.put ++ le 2 r.freed ++ le 2 (r.size - 1 - ringSub r.size r.put r.freed) ++
          [BitVec.ofNat 8 ((if r.phase then 1 else 0) + (if r.armed then 2 else 0)), BitVec.ofNat 8 waiting]
      field 0 2 = [BitVec.ofNat 8 s.bp.link.code, BitVec.ofNat 8 ((s.bp.lastDown.map DownCause.code).getD 0)] ∧
      field 2 1 = [BitVec.ofNat 8 ((if s.bp.signal then 1 else 0) + 2 * (s.ce.role.map Role.code).getD 0)] ∧
      field 3 3 = [BitVec.ofNat 8 s.ce.sync.code, BitVec.ofNat 8 s.ce.coasting, BitVec.ofNat 8 s.ce.echoMiss] ∧
      field 6 4 = le 2 ((s.ce.period.map Period.us).getD 0) ++ le 2 s.ce.inForce.us ∧
      field 10 6 = le 2 s.ce.cycle.toNat ++ le 2 s.body.reservedSum ++ le 2 s.body.lt.budget ∧
      field 16 4 = [BitVec.ofNat 8 s.body.lt.notices.length, BitVec.ofNat 8 (freeCount s.body.blocks),
        BitVec.ofNat 8 s.body.table.length, BitVec.ofNat 8 s.body.events.length] ∧
      field 20 4 = le 2 s.bp.localProfile.length ++ le 2 ((s.bp.peerProfile.map List.length).getD 0) ∧
      field 24 4 = le 4 (checkValue s.bp.localProfile).toNat ∧
      (s.bp.bringUpEnds = none → field 28 4 = le 4 0) ∧
      (∀ t, s.bp.bringUpEnds = some t → ∃ ms, field 28 4 = le 4 ms ∧
        t - s.now < 1000 * ms + 1000 ∧ 1000 * ms < t - s.now + 1000) ∧
      (s.bp.outgoing = none → field 32 1 = [0]) ∧
      (∀ o, s.bp.outgoing = some o →
        field 32 1 = [if o.done then 7 else BitVec.ofNat 8 (o.chunk + 16 * o.sends)]) ∧
      (s.bp.incoming = none → field 33 1 = [0]) ∧
      (∀ x, s.bp.incoming = some x → field 33 1 = [if x.done then 7 else BitVec.ofNat 8 x.next]) ∧
      (s.body.admin = none → field 34 6 = le 6 0) ∧
      (∀ r, s.body.admin = some r → field 34 6 = le 2 r.posted ++ le 2 r.taken ++ le 2 r.fetchPos) ∧
      field 40 8 = le 8 0 ∧
      (∀ c : Fin 4, s.body.completion[c] = none → field (48 + 8 * c.val) 8 = le 8 0) ∧
      (∀ (c : Fin 4) (cr : CompletionRing), s.body.completion[c] = some cr →
        field (48 + 8 * c.val) 8 = ringBytes cr.ring cr.waiting.length) ∧
      (s.body.event = none → field 80 8 = le 8 0) ∧
      (∀ r, s.body.event = some r → field 80 8 = ringBytes r 0) ∧
      field 88 40 = le 40 0)

/-! ### Link and profile requests -/

/-- LINK_UP: values out of range are refused BAD_REQUEST, a link that is not DOWN WRONG_STATE. Accepted, the engine
takes the role and period, the link becomes CALLING with its timers running, a HELLO becomes due and LINK_STATE(CALLING)
is raised. That BAD_REQUEST comes before WRONG_STATE is the model's: notes/assumptions/13.md. -/
def Obligations.LinkUpCallsThePeer : Prop :=
  ∀ (s : State) (ring : HostRing) (tag : Tag) (roleCode : Byte) (period timeout : Word),
    s.awaitsRequest ring → s.noLinkRequest →
    let c := Instr.linkUp tag roleCode period timeout
    let r : AdminRecord := { AdminRecord.plain 8 0 tag with p0 := roleCode, w1 := period, w2 := timeout }
    ((roleCode ≠ 1 ∧ roleCode ≠ 2) ∨ period.toNat ∉ [125, 250, 500, 1000] ∨ timeout.toNat < 10 ∨ 60000 < timeout.toNat →
      s.completesWith c ring r true .badRequest 0) ∧
    (∀ (role : Role) (p : Period), role.code = roleCode.toNat → p.us = period.toNat → 10 ≤ timeout.toNat →
      timeout.toNat ≤ 60000 →
      (s.bp.link ≠ .down → s.completesWith c ring r true .wrongState 0) ∧
      (s.bp.link = .down → (∀ f ∈ s.body.lt.due ++ s.body.lt.fresh, f.isHello = false) →
        s.carriesOut c ring r fun t =>
          ({ t with
            ce := { t.ce with
              role := some role, period := some p, sync := .unlocked, coasting := 0, echoMiss := 0
              firstMarker := role == Role.follower }
            bp := { t.bp with
              link := .calling, pendingLinkUp := some s.body.nextId
              bringUpEnds := some (s.now + 1000 * timeout.toNat)
              helloEnds := some (s.now + 1000) } }.withDue
            (.hello (BitVec.ofNat 8 role.code) (BitVec.ofNat 16 p.us) (BitVec.ofNat 16 s.bp.localProfile.length)
              (checkValue s.bp.localProfile))).withEvent none (.linkState .calling none)))

/-- LINK_DOWN: on a DOWN link it completes OK and changes nothing; from CALLING or EXCHANGING the link goes DOWN, the
pending LINK_UP completes OVERTAKEN and LINK_DOWN then completes OK; from UP the link goes down with cause REQUESTED and
a FAREWELL becomes due, and LINK_DOWN stays in flight. The frames dropped with the link are the model's reading:
notes/assumptions/26.md. -/
def Obligations.LinkDownTakesTheLinkDown : Prop :=
  ∀ (s : State) (ring : HostRing) (tag : Tag), s.awaitsRequest ring →
    (∀ e ∈ s.body.table, isLinkCode e.code = true → e.code = 8) →
    let c := Instr.linkDown tag
    let r := AdminRecord.plain 9 0 tag
    (s.bp.link = .down → s.completesWith c ring r true .ok 0) ∧
    (∀ pending, s.bp.link = .calling ∨ s.bp.link = .exchanging → s.bp.pendingLinkUp = some pending →
      s.carriesOut c ring r fun t =>
        (({ t with bp := { t.bp with
              link := .down, lastDown := some .requested, pendingLinkUp := none, bringUpEnds := none
              helloEnds := none, peerHello := none, outgoing := none, incoming := none } }.onBody
            (Body.dropDue fun f => !f.isFarewell)).withEvent none (.linkState .down (some .requested))).finish pending
              .overtaken 0 |>.finish s.body.nextId .ok 0) ∧
    (s.bp.link = .up → s.carriesOut c ring r fun t => (t.leaveUp .requested).withDue .farewell)

/-- LOAD_PROFILE and READ_PEER_PROFILE as they are taken: the refusals, and otherwise the transfer they begin;
BAD_PROFILE before BAD_REQUEST for a LOAD_PROFILE of a length out of range, and BAD_REQUEST before LINK_NOT_UP, are the
model's: notes/assumptions/13.md. The end of a LOAD_PROFILE read: the checks of
R132 in order against the part as it stands, checks 2 to 5 spelled out on the bytes, and a profile that passes them
replaces the local profile with its check value as the result. In STOPPING it completes ABORTED. -/
def Obligations.ProfileRequestsBeginAndLoadDecides : Prop :=
  (∀ (s : State) (ring : HostRing) (tag : Tag) (addr : Addr) (length : Word), s.awaitsRequest ring →
      let load := Instr.loadProfile tag addr length
      let rl : AdminRecord := { AdminRecord.plain 10 0 tag with addr := addr, w1 := length }
      let peer := Instr.readPeerProfile tag addr length
      let rp : AdminRecord := { AdminRecord.plain 11 0 tag with addr := addr, w1 := length }
      let n := length.toNat
      (n < 8 ∨ 256 < n → s.completesWith load ring rl true .badProfile 0) ∧
      (8 ≤ n → n ≤ 256 → 2 ^ 64 < addr.toNat + n → s.completesWith load ring rl true .badRequest 0) ∧
      (8 ≤ n → n ≤ 256 → addr.toNat + n ≤ 2 ^ 64 → s.carriesOut load ring rl fun t =>
        t.onBody (Body.setWork s.body.nextId (.profileRead addr n))) ∧
      (256 < n ∨ 2 ^ 64 < addr.toNat + n → s.completesWith peer ring rp true .badRequest 0) ∧
      (n ≤ 256 → addr.toNat + n ≤ 2 ^ 64 → s.bp.link ≠ .up → s.completesWith peer ring rp true .linkNotUp 0) ∧
      (∀ p, n ≤ 256 → addr.toNat + n ≤ 2 ^ 64 → s.bp.link = .up → s.bp.peerProfile = some p →
        (n = 0 → s.completesWith peer ring rp true .ok p.length) ∧
        (n ≠ 0 → s.carriesOut peer ring rp fun t =>
          t.onBody (Body.setWork s.body.nextId (.peerWrites addr (p.take n) p.length))))) ∧
  (∀ (n : Nat) (data : List Byte), validProfile n data = true ↔
      let byte := fun (k : Nat) => (data.getD k 0).toNat
      let padded := (byte 3 + 3) / 4 * 4
      let entry := fun (k : Nat) => 8 + padded + 12 * k
      let length := fun (k : Nat) => byte (entry k + 4) + 256 * byte (entry k + 5)
      byte 0 + 256 * byte 1 = n ∧ byte 2 ≤ 16 ∧ byte 3 ≤ 64 ∧ 8 + padded + 12 * byte 2 = n ∧
      (∀ k, k < byte 2 → byte (entry k) ≤ 15 ∧ (byte (entry k + 1) = 1 ∨ byte (entry k + 1) = 2) ∧
        4 ≤ length k ∧ length k ≤ 1024 ∧ length k % 4 = 0 ∧
        ((byte (entry k + 2) = 1 ∧ 1 ≤ byte (entry k + 3) ∧ byte (entry k + 3) ≤ 3) ∨
          (byte (entry k + 2) = 2 ∧ byte (entry k + 3) = 0))) ∧
      (∀ k l, k < l → l < byte 2 → byte (entry k) ≠ byte (entry l)) ∧
      (∀ k, 4 ≤ k → k < 8 → byte k = 0) ∧ (∀ k, byte 3 ≤ k → k < padded → byte (8 + k) = 0) ∧
      (∀ k j, k < byte 2 → 6 ≤ j → j < 12 → byte (entry k + j) = 0)) ∧
  (∀ (s : State) (id : Nat) (e : Entry) (addr : Addr) (n : Nat) (data : List Byte),
      s.body.entry id = some e → e.work = .profileRead addr n → data.length = n →
      let c := Instr.loadProfileReadEnd id (some data)
      let ends := fun (status : Status) => exec c s = .next (s.finish id status 0).settle
      (s.fn = .stopping → ends .aborted) ∧
      (s.fn = .running → exec (.loadProfileReadEnd id none) s = .next (s.finish id .memoryError 0).settle) ∧
      (s.fn = .running → s.bp.link ≠ .down → ends .wrongState) ∧
      (s.fn = .running → s.bp.link = .down → validProfile n data = false → ends .badProfile) ∧
      (s.fn = .running → s.bp.link = .down → validProfile n data = true →
        (∃ i st, s.body.stream i = some st ∧ localAllows data i st = false) → ends .wrongState) ∧
      (s.fn = .running → s.bp.link = .down → validProfile n data = true →
        (∀ i st, s.body.stream i = some st → localAllows data i st = true) →
        exec c s = .next (State.finish id .ok (checkValue data).toNat
          { s with bp := { s.bp with localProfile := data } }).settle))

/-- The end of the writes of READ_PEER_PROFILE, QUERY_STREAM and QUERY_LINK: the request completes OK with its result,
MEMORY_ERROR, or in STOPPING ABORTED. An accepted write of the Ring Interface ends; that of a completion makes the held
completion of its source absent: an admin entry leaves the table, and a stream forgets a bad record whose completion
this was. Which write an end belongs to is the model's reading: notes/assumptions/12.md. -/
def Obligations.WritesOfRequestsAndRingsEnd : Prop :=
  (∀ (s : State) (id : Nat) (e : Entry) (ok : Bool), s.fn = .running ∨ s.fn = .stopping → s.body.entry id = some e →
      let ends := fun (c : Instr) (result : Nat) => exec c s = .next
        (if s.fn = .stopping then s.finish id .aborted 0
          else if ok then s.finish id .ok result else s.finish id .memoryError 0).settle
      (∀ a d n, e.work = .peerWrites a d n → ends (.readPeerProfileWritesEnd id ok) n) ∧
      (∀ a d, e.work = .streamWrites a d → ends (.queryStreamWritesEnd id ok) 64) ∧
      (∀ a d, e.work = .linkWrites a d → ends (.queryLinkWritesEnd id ok) 128)) ∧
  (∀ (s : State) (w : RingWrite) (before after : List RingWrite), s.fn = .running ∨ s.fn = .stopping →
      s.body.ringWrites = before ++ w :: after →
      let ended : State := s.onBody fun b => { b with ringWrites := before ++ after }
      (w.kind = .event → (∀ x ∈ before, x.kind ≠ .event) → exec (.eventWriteEnd true) s = .next ended.settle) ∧
      (w.kind = .interrupt → (∀ x ∈ before, x.kind ≠ .interrupt) →
        exec (.interruptMessageWriteEnd true) s = .next ended.settle) ∧
      ((∀ x ∈ before, x.kind = .event ∨ x.kind = .interrupt) →
        (∀ id, w.kind = .completion (.admin id) → exec (.completionWriteEnd true) s = .next
          (ended.onBody fun b => { b with table := b.table.filter fun e => e.id != id }).settle) ∧
        (∀ i st, w.kind = .completion (.stream i) → s.body.stream i = some st →
          exec (.completionWriteEnd true) s = .next (ended.withStream i st { st with
            held := none
            bad := match st.bad with
              | some r => if r.formed then none else some r
              | none => none }).settle)))

/-! ### Memory transfers of streams and rings -/

/-- A work record fetch ends: its record is held for its position, unless a NOTIFY has cut the fetch off; an error
response ends the fetch and halts a stream that can halt with FETCH_ERROR. The record held for the taken position,
once it is posted, is the next one, and it is handed on to a stream ACTIVE, FLUSHING or CLOSING: it joins the list if
it passes the checks of R45 or R65, and halts the stream with BAD_RECORD if it does not. One that returns to a stream
HALTING, HALTED or ABORTING is discarded and not taken. In RUNNING a fetch goes out for an ACTIVE stream with no held
completion while a posted record is not yet fetched and the records fetched, held and listed come to fewer than eight;
a stream comes to rest only when none is due. Naming a fetch by its place, a cut-off fetch, and the order within an
event are the model's: notes/assumptions/14.md, 22.md and 5.md; so are a record that joins in CLOSING after the
close's commit, and a bad record of a stream that has a halt cause, which is taken and dropped:
notes/assumptions/39.md and 38.md; and so are the discard at once of a record held when the stream comes to HALTING or
ABORTING, and when the fetch position returns: notes/assumptions/57.md and 48.md. -/
def Obligations.WorkRecordsAreTaken : Prop :=
  (∀ (s : State) (i : StreamId) (st : Stream) (slot : Nat) (f : Fetch) (bits : BitVec 256),
    s.fn = .running ∨ s.fn = .stopping → s.body.stream i = some st → st.ring.fetches[slot]? = some f →
    let ended := st.ring.fetches.eraseIdx slot
    exec (.workRecordFetchReturn i slot (some bits)) s = .next (s.withStream i st { st with ring := { st.ring with
      fetches := ended
      returned := if f.dropped then st.ring.returned else st.ring.returned ++ [(f.position, bits)] } }).settle ∧
    exec (.workRecordFetchReturn i slot none) s = .next ((s.withStream i st { st with
      ring := { st.ring with fetches := ended } }).onBody (Body.halt i .fetchError)).settle) ∧
  (∀ (env : Env) (st : Stream),
    let takes := (st.state = .active ∨ st.state = .flushing ∨ st.state = .closing) ∧ st.held = none
    (¬takes ∨ st.ring.next? = none → st.handOn env = none) ∧
    (∀ bits ring, st.ring.next? = some (bits, ring) → takes →
      let length := fieldAt bits 8 4
      let address := addrAt bits 0
      let mark := (byteAt bits 13).getLsbD 0
      let quiet := (byteAt bits 13).getLsbD 1
      let tag := addrAt bits 16
      let sound := length ≤ 2 ^ 20 ∧ fieldAt bits 14 2 = 0 ∧ fieldAt bits 24 8 = 0
      let passes := match st.dir with
        | .outbound => byteAt bits 12 = 1 ∧ sound ∧ (byteAt bits 13).toNat < 4 ∧
          (length ≠ 0 → address.toNat + length ≤ 2 ^ 64)
        | .inbound => byteAt bits 12 = 2 ∧ sound ∧ 1 ≤ length ∧ (byteAt bits 13 = 0 ∨ byteAt bits 13 = 2) ∧
          address.toNat + length ≤ 2 ^ 64
      (st.ring.taken, bits) ∈ st.ring.returned ∧ ring.taken = (st.ring.taken + 1) % st.ring.size ∧
      (∀ p, p ∈ ring.returned ↔ p ∈ st.ring.returned ∧ p.1 ≠ st.ring.taken) ∧
      (passes → st.dir = .outbound → st.handOn env = some ({ st with
        ring := ring
        sends := st.sends ++ [
          { position := st.ring.taken, tag := tag, addr := address, length := length, eom := mark, quiet := quiet,
            requested := 0, read := 0, confirmed := 0, markCarried := false, markConfirmed := false,
            finishCycle := if length = 0 ∧ mark = false ∧ env.up = true then some env.cycle else none }] }, .none)) ∧
      (passes → st.dir = .inbound → st.handOn env = some ({ st with
        ring := ring
        receives := st.receives ++ [
          { position := st.ring.taken, tag := tag, addr := address, capacity := length, quiet := quiet, issued := 0,
            written := 0, markIssued := false, markDelivered := false, firstCycle := none, gap := false }] }, .none)) ∧
      (¬passes → st.cause = none → st.handOn env = some ({ st with
        ring := ring, bad := some { position := st.ring.taken, tag := tag, formed := false }
        state := .halting, cause := some .badRecord, stage := .waiting }, .halted .badRecord)) ∧
      (¬passes → st.cause ≠ none → st.handOn env = some ({ st with ring := ring }, .none)))) ∧
  (∀ r : HostRing,
    let pending := ringSub r.size r.posted r.taken
    (pending = 0 ∨ (∀ p ∈ r.returned, p.1 ≠ r.taken) → r.next? = none) ∧
    (∀ before after bits, 0 < pending → r.returned = before ++ (r.taken, bits) :: after →
      (∀ p ∈ before, p.1 ≠ r.taken) → r.next? = some (bits, { r with
        taken := (r.taken + 1) % r.size
        returned := r.returned.filter fun p => p.1 != r.taken }))) ∧
  (∀ (env : Env) (i : StreamId) (st : Stream), st.state = .halting ∨ st.state = .halted ∨ st.state = .aborting →
    st.ring.returned ≠ [] → st.leaveOne i = none → st.placeOne = none →
    st.internal env i = some ({ st with ring := { st.ring with returned := [], fetchPos := st.ring.taken } }, .none)) ∧
  (∀ (env : Env) (i : StreamId) (st : Stream),
    let due := env.running = true ∧ st.state = .active ∧ st.held = none ∧
      ringSub st.ring.size st.ring.fetchPos st.ring.taken < ringSub st.ring.size st.ring.posted st.ring.taken ∧
      st.ring.fetches.length + st.ring.returned.length + st.sends.length + st.receives.length < 8
    (due → st.fetchOne env = some { st with ring := { st.ring with
      fetches := st.ring.fetches ++ [{ position := st.ring.fetchPos, dropped := false }]
      fetchPos := (st.ring.fetchPos + 1) % st.ring.size } }) ∧
    (¬due → st.fetchOne env = none) ∧ (st.internal env i = none → ¬due))

/-- A send-buffer read ends: its data waits in its place among the reads to be placed; an error response ends the
read, and halts a stream that can halt with MEMORY_ERROR and the record of the read as the failed record; in a stream
that is HALTING for another cause it is remembered for the completions of that halt. A receive-buffer write ends.
Accepted, it raises the bytes written of the head and of the DRAINING buffer, gives the head its first-byte cycle, GAP
flag and delivered mark, and the buffer becomes FREE with its last byte; after a failed write nothing is counted, and
the failed write halts a stream that can halt with MEMORY_ERROR. That a read is named by its place, and which write an
end belongs to, are the model's reading: notes/assumptions/14.md and 12.md; that it is remembered also for LINK_LOST,
NO_ANSWER and PEER_CLOSED is its choice: notes/assumptions/55.md. -/
def Obligations.SendReadsAndReceiveWritesEnd : Prop :=
  (∀ (s : State) (i : StreamId) (st : Stream) (before after : List SendRead) (r : SendRead) (data : List Byte),
      s.fn = .running ∨ s.fn = .stopping → s.body.stream i = some st → st.reads = before ++ r :: after →
      r.data = none → data.length = r.length →
      let slot := before.countP fun x => x.data.isNone
      exec (.sendBufferReadReturn i slot (some data)) s = .next (s.withStream i st { st with
        reads := before ++ { r with data := some data } :: after }).settle ∧
      (st.mayHalt = true → exec (.sendBufferReadReturn i slot none) s = .next ((s.withStream i st { st with
        reads := before ++ after, failed := some r.position }).onBody (Body.halt i .memoryError)).settle) ∧
      (st.mayHalt = false → exec (.sendBufferReadReturn i slot none) s = .next (s.withStream i st { st with
        reads := before ++ after
        failed := if st.state = .halting ∧ st.cause ≠ some .memoryError then some r.position else st.failed }).settle)) ∧
  (∀ (s : State) (i : StreamId) (st : Stream) (w : ReceiveWrite) (rest : List ReceiveWrite),
      s.fn = .running ∨ s.fn = .stopping → s.body.stream i = some st → st.writes = w :: rest →
      (∀ (k : Nat) (data : List Byte) (mark gap : Bool) (value : ArrivalValue) (cycle : CycleNum) (written issued : Nat)
          (e : ReceiveEntry) (es : List ReceiveEntry),
        st.writeFailed = false → st.drainingIndex = some k → st.buffer k = .draining data mark value cycle gap written issued →
        st.receives = e :: es →
        let head : ReceiveEntry := { e with
          written := e.written + w.data.length
          firstCycle := if e.firstCycle = none then some cycle else e.firstCycle
          gap := e.gap || gap
          markDelivered := e.markDelivered || w.last }
        (written + w.data.length < data.length → exec (.receiveBufferWriteEnd i true) s = .next (s.withStream i st { st with
          writes := rest, receives := head :: es
          buffers := st.buffers.set k (.draining data mark value cycle false (written + w.data.length) issued) }).settle) ∧
        (data.length ≤ written + w.data.length → exec (.receiveBufferWriteEnd i true) s = .next (s.withStream i st { st with
          writes := rest, receives := head :: es
          buffers := st.buffers.set k .free, queue := st.queue.filter (· != k) }).settle)) ∧
      (st.writeFailed = true → exec (.receiveBufferWriteEnd i true) s = .next
        (s.withStream i st { st with writes := rest }).settle) ∧
      exec (.receiveBufferWriteEnd i false) s = .next ((s.withStream i st { st with
        writes := rest, writeFailed := true }).onBody (Body.halt i .memoryError)).settle)

/-! ### What the blocks do on their own -/

/-- The Outbound Assembler's reads, placements and commits. For the assembly head of a stream that may read, one read
of at most 256 bytes goes out while fewer than four are in flight, shortened to what is left of the record and to the
room less the bytes not yet placed; it claims a FREE buffer where none is FILLING. A marked head waits, once
requested, until its last byte has been placed, and no read of a later record goes out before; a list with nothing
left to assemble has no read. A head of length 0 with the mark commits the FILLING buffer, or an empty packet, once
every read has been placed. Returned data fills the FILLING buffer, or a FREE one claimed for it, which is committed
at L bytes, or with the mark by the last byte of a marked record; what crosses L stays for the next buffer. A graceful
close commits what the last record leaves in FILLING. A finished head leaves the list while no completion is held,
with its OK completion or, if it is quiet, without one; which stages of a flush, a close or a halt let it leave is the
model's reading: notes/assumptions/24.md. -/
def Obligations.AssemblerReadsAndPlaces : Prop :=
  (∀ (st : Stream) (done later : List SendEntry) (e : SendEntry), st.sends = done ++ e :: later →
    (st.sends.map SendEntry.position).Nodup →
    (∀ x ∈ done, x.requested = x.length ∧ (x.eom = true → x.markCarried = true)) →
    let filling := st.buffers.findIdx? Buffer.isFilling
    let free := st.buffers.findIdx? Buffer.isFree
    let mayRead := st.state = .active ∨ (st.state = .closing ∧ st.cause = none)
    (1 ≤ e.length → e.requested < e.length →
      let room := (match filling with
        | some k => st.maxLen - (st.buffer k).count
        | none => 0) + st.maxLen * st.buffers.countP Buffer.isFree
      let unplaced := (st.reads.map fun r => (r.data.map List.length).getD r.length).sum
      let inFlight := st.reads.countP fun r => r.data.isNone
      let n := min (min 256 (e.length - e.requested)) (room - unplaced)
      (¬mayRead → st.assembleOne = none) ∧
      (4 ≤ inFlight ∨ n = 0 → st.assembleOne = none) ∧
      (mayRead → inFlight < 4 → n ≠ 0 →
        st.assembleOne = some { st with
          sends := done ++ { e with requested := e.requested + n } :: later
          buffers := match filling, free with
            | none, some k => st.buffers.set k (.filling [])
            | _, _ => st.buffers
          reads := st.reads ++ [
            { position := e.position, addr := e.addr + BitVec.ofNat 64 e.requested, length := n, data := none }] })) ∧
    (1 ≤ e.length → e.requested = e.length → e.eom = true → e.markCarried = false → st.assembleOne = none) ∧
    (e.length = 0 → e.requested = 0 → e.eom = true → e.markCarried = false →
      let marked := fun (k : Nat) (data : List Byte) => st.assembleOne = some { st with
        sends := done ++ { e with markCarried := true } :: later
        buffers := st.buffers.set k (.committed data true), queue := st.queue ++ [k] }
      (¬mayRead ∨ st.reads ≠ [] → st.assembleOne = none) ∧
      (∀ k data, mayRead → st.reads = [] → filling = some k → st.buffer k = .filling data → data ≠ [] → marked k data) ∧
      (∀ k, mayRead → st.reads = [] → (∀ j, filling = some j → st.buffer j = .filling []) → free = some k →
        marked k []) ∧
      ((∀ j, filling = some j → st.buffer j = .filling []) → free = none → st.assembleOne = none)) ∧
    (∀ (r : SendRead) (rest : List SendRead) (data cur : List Byte) (k : Nat), st.reads = r :: rest →
      r.position = e.position →
      (filling = some k ∧ st.buffer k = .filling cur) ∨ (filling = none ∧ free = some k ∧ cur = []) →
      cur.length ≤ st.maxLen →
      let fits := st.maxLen - cur.length
      let ends := e.eom = true ∧ r.addr + BitVec.ofNat 64 r.length = e.addr + BitVec.ofNat 64 e.length
      let counted := fun (n : Nat) (carried : Bool) =>
        done ++ { e with read := e.read + n, markCarried := e.markCarried || carried } :: later
      (r.data = none → st.placeOne = none) ∧
      (r.data = some data → fits < data.length → st.placeOne = some { st with
        reads := { r with data := some (data.drop fits) } :: rest, sends := counted fits false
        buffers := st.buffers.set k (.committed (cur ++ data.take fits) false), queue := st.queue ++ [k] }) ∧
      (r.data = some data → data.length ≤ fits → ends → st.placeOne = some { st with
        reads := rest, sends := counted data.length true
        buffers := st.buffers.set k (.committed (cur ++ data) true), queue := st.queue ++ [k] }) ∧
      (r.data = some data → data.length = fits → ¬ends → st.placeOne = some { st with
        reads := rest, sends := counted data.length false
        buffers := st.buffers.set k (.committed (cur ++ data) false), queue := st.queue ++ [k] }) ∧
      (r.data = some data → data.length < fits → ¬ends → st.placeOne = some { st with
        reads := rest, sends := counted data.length false
        buffers := st.buffers.set k (.filling (cur ++ data)) }))) ∧
  (∀ st : Stream, (∀ e ∈ st.sends, e.requested = e.length ∧ (e.eom = true → e.markCarried = true)) →
    st.assembleOne = none) ∧
  (∀ (st : Stream),
    let reached := st.state = .closing ∧ st.cause = none ∧ st.reads = [] ∧
      ∀ e ∈ st.sends, e.requested = e.length ∧ (e.eom = true → e.markCarried = true)
    let filling := st.buffers.findIdx? Buffer.isFilling
    (¬reached ∨ (∀ k, filling = some k → st.buffer k = .filling []) → st.closeCommit = none) ∧
    (∀ k data, reached → filling = some k → st.buffer k = .filling data → data ≠ [] → st.closeCommit = some { st with
      buffers := st.buffers.set k (.committed data false), queue := st.queue ++ [k] })) ∧
  (∀ (i : StreamId) (st : Stream) (e : SendEntry) (es : List SendEntry), st.dir = .outbound → st.sends = e :: es →
    let leaves := st.held = none ∧
      (st.state = .active ∨ st.state = .halting ∨ st.state = .flushing ∨ st.state = .closing) ∧
      (st.stage = .idle ∨ st.stage = .waiting ∨ st.stage = .leaving) ∧
      e.confirmed = e.length ∧ (e.eom = true → e.markConfirmed = true)
    (¬leaves → st.leaveOne i = none) ∧
    (leaves → e.quiet = true → st.leaveOne i = some { st with sends := es }) ∧
    (leaves → e.quiet = false → st.leaveOne i = some { st with
      sends := es
      held := some
        { stage := .formed
          completion :=
            { kind := .send, stream := BitVec.ofNat 8 i.val, status := .ok, eom := false, gap := false,
              stamp := e.finishCycle, position := e.position, tag := e.tag, count := e.length, code := 0 } } }))

/-- The Inbound Distributor's takes and writes. A stream may write in ACTIVE, and in CLOSING with its halt cause
absent until its delivery ends. While the head record of such a stream is open, the oldest HELD packet becomes
DRAINING, or is delivered at once if it is empty; and while fewer than four writes are in flight the next write
carries at most 256 bytes of the DRAINING packet, no more than the head has room for. The write that issues the last
byte of a marked packet sets the head's mark issued. A head that is full or has its mark issued takes nothing more;
with no record, with no packet, or while one is DRAINING none is taken. A done head leaves the list while no
completion is held, with its OK completion or, if it is quiet, without one; which stages of a flush, a close or a halt
let it leave is the model's reading: notes/assumptions/24.md. -/
def Obligations.DistributorTakesAndWrites : Prop :=
  (∀ st : Stream,
    let draining := st.buffers.any Buffer.isDraining
    (st.receives = [] ∨ st.queue = [] ∨ draining = true → st.takeHeld = none) ∧
    (st.receives = [] ∨ draining = false → st.issueWrite = none)) ∧
  ∀ (st : Stream) (e : ReceiveEntry) (es : List ReceiveEntry), st.receives = e :: es →
    let mayWrite := st.state = .active ∨ (st.state = .closing ∧ st.cause = none ∧ st.stage = .waiting)
    (¬mayWrite → st.takeHeld = none ∧ st.issueWrite = none) ∧
    (e.capacity ≤ e.issued ∨ e.markIssued = true → st.takeHeld = none ∧ st.issueWrite = none) ∧
    (4 ≤ st.writes.length → st.issueWrite = none) ∧
    (mayWrite → e.issued < e.capacity → e.markIssued = false →
      (∀ (k : Nat) (ks : List Nat) (data : List Byte) (mark : Bool) (value : ArrivalValue) (cycle : CycleNum) (gap : Bool),
        st.queue = k :: ks → st.buffers.findIdx? Buffer.isDraining = none → st.buffer k = .held data mark value cycle gap →
        (data ≠ [] → st.takeHeld = some { st with
          buffers := st.buffers.set k (.draining data mark value cycle gap 0 0) }) ∧
        (data = [] → st.takeHeld = some { st with
          buffers := st.buffers.set k .free, queue := st.queue.filter (· != k)
          receives := { e with
            markIssued := mark, markDelivered := e.markDelivered || mark
            firstCycle := if mark = true ∧ e.firstCycle = none then some cycle else e.firstCycle
            gap := e.gap || gap } :: es })) ∧
      (∀ (k : Nat) (data : List Byte) (mark : Bool) (value : ArrivalValue) (cycle : CycleNum) (gap : Bool)
          (written issued : Nat),
        st.buffers.findIdx? Buffer.isDraining = some k → st.buffer k = .draining data mark value cycle gap written issued →
        let n := min (min 256 (data.length - issued)) (e.capacity - e.issued)
        (data.length ≤ issued → st.issueWrite = none) ∧
        (issued < data.length → st.writes.length < 4 → ∃ last : Bool,
          (last = true ↔ mark = true ∧ issued + n = data.length) ∧
          st.issueWrite = some { st with
            buffers := st.buffers.set k (.draining data mark value cycle gap written (issued + n))
            receives := { e with issued := e.issued + n, markIssued := last } :: es
            writes := st.writes ++ [
              { addr := e.addr + BitVec.ofNat 64 e.issued, data := (data.drop issued).take n, last := last }] }))) ∧
    (∀ i : StreamId, st.dir = .inbound →
      let leaves := st.held = none ∧
        (st.state = .active ∨ st.state = .halting ∨ st.state = .flushing ∨ st.state = .closing) ∧
        (st.stage = .idle ∨ st.stage = .waiting ∨ st.stage = .leaving) ∧
        (e.capacity ≤ e.issued ∨ e.markIssued = true) ∧ e.written = e.issued ∧
        (e.markIssued = true → e.markDelivered = true)
      (¬leaves → st.leaveOne i = none) ∧
      (leaves → e.quiet = true → st.leaveOne i = some { st with receives := es }) ∧
      (leaves → e.quiet = false → st.leaveOne i = some { st with
        receives := es
        held := some
          { stage := .formed
            completion :=
              { kind := .receive, stream := BitVec.ofNat 8 i.val, status := .ok, eom := e.markDelivered, gap := e.gap,
                stamp := e.firstCycle, position := e.position, tag := e.tag, count := e.written, code := 0 } } }))

/-- Halted streams complete their records by the table of R12. Nothing moves while a fetch, a read or a write of the
stream is in flight or a SENT packet awaits its answer (one answered DEFER does not: notes/assumptions/21.md). Then
the packets of an OUT stream are discarded, their bytes counting towards a flush in flight, an IN stream's issued
counts and marks are brought back to what was written, and finished heads leave; and then the records complete one at
a time, the next only when the one before has been written: of an OUT stream every outstanding record, ABORTED where a
read failed in a halt for another cause than MEMORY_ERROR, of an IN stream every record for BAD_RECORD and else at
most the head; the bad record comes last. With none left the stream is HALTED; that a halt with none of its own does
not wait for a completion held from before it, and that the ABORTED of R53 goes before the table of R12 for LINK_LOST,
NO_ANSWER and PEER_CLOSED, are the model's choices: notes/assumptions/51.md and 55.md. -/
def Obligations.HaltedStreamsCompleteTheirRecords : Prop :=
  ∀ (i : StreamId) (st : Stream) (cause : HaltCause), st.state = .halting → st.cause = some cause →
    let status : Status := match cause with
      | .linkLost => .linkLost
      | .noAnswer => .noAnswer
      | .peerClosed => .peerClosed
      | _ => .aborted
    let formed := fun (x : Stream) (c : Completion) => some ({ x with held := some { completion := c, stage := .formed } },
      Effect.none)
    let awaited := st.sentIndex ≠ none ∧ ∃ next n, st.seq = .bestEffortOut next true n
    (st.stage = .waiting →
      (st.ring.fetches ≠ [] ∨ (∃ r ∈ st.reads, r.data = none) ∨ st.writes ≠ [] ∨ awaited → st.wind i = none) ∧
      (st.ring.fetches = [] → (∀ r ∈ st.reads, r.data ≠ none) → st.writes = [] → ¬awaited →
        ∃ st', st.wind i = some (st', .none) ∧ st'.stage = .leaving ∧ st'.sends = st.sends ∧
          (st.dir = .outbound → st'.receives = st.receives ∧ st'.reads = [] ∧
            st'.discarded = st.discarded +
              ((st.buffers.filter fun b => b.isFilling || b.isCommitted || b.isSent).map Buffer.count).sum ∧
            ∀ b ∈ st.buffers, b.isHeld = false → b.isReceiving = false →
              b.isDraining = false → ∀ k, st.buffers[k]? = some b → st'.buffer k = .free) ∧
          (st.dir = .inbound → st'.queue = st.queue ∧ st'.writeFailed = false ∧ st'.discarded = st.discarded ∧
            st'.receives = st.receives.map (fun e => { e with
              issued := e.written, markIssued := e.markIssued && e.markDelivered }) ∧
            ∀ k, st'.buffer k = match st.buffer k with
              | .draining data mark value cycle gap written _ => .draining data mark value cycle gap written written
              | b => b))) ∧
    (st.held = none → st.stage = .completeAll status → st.dir = .outbound →
      (∀ e es, st.sends = e :: es → st.wind i = formed { st with sends := es } (sendCompletion i e
        (if cause = .memoryError then (if st.failed = some e.position then .memoryError else status)
          else if st.failed = none then status else .aborted))) ∧
      (∀ b, st.sends = [] → st.bad = some b → b.formed = false → st.wind i = formed
        { st with bad := some { b with formed := true } } (badCompletion i .outbound b .badRecord)) ∧
      (st.sends = [] → st.bad = none → st.wind i = some ({ st with stage := .finished }, .none))) ∧
    (st.held = none → st.stage = .completeAll .aborted → st.dir = .inbound →
      (∀ e es, st.receives = e :: es →
        st.wind i = formed { st with receives := es } (receiveCompletion i e .aborted)) ∧
      (∀ b, st.receives = [] → st.bad = some b → b.formed = false → st.wind i = formed
        { st with bad := some { b with formed := true } } (badCompletion i .inbound b .badRecord)) ∧
      (st.receives = [] → st.bad = none → st.wind i = some ({ st with stage := .finished }, .none))) ∧
    (∀ s b, st.held = none → st.stage = .completeAll s → st.sends = [] → st.receives = [] → st.bad = some b →
      b.formed = true → st.wind i = some ({ st with stage := .finished }, .none)) ∧
    (st.stage = .leaving → st.headEnded = false → st.dir = .outbound → st.wind i = some ({ st with
      stage := if st.sends = [] ∧ st.bad = none then .finished else .completeAll status }, .none)) ∧
    (st.stage = .leaving → st.headEnded = false → st.dir = .inbound → st.wind i = some ({ st with
      stage := (match cause, st.receives with
        | .badRecord, _ => .completeAll .aborted
        | _, [] => .finished
        | .memoryError, _ => .completeHead .memoryError
        | _, e :: _ => if 1 ≤ e.written then .completeHead status else .finished) }, .none)) ∧
    (∀ e es s, st.held = none → st.stage = .completeHead s → s ≠ .flushed → st.receives = e :: es →
      st.wind i = formed { st with receives := es, stage := .awaitWrite } (receiveCompletion i e s)) ∧
    (st.held = none → st.stage = .awaitWrite → st.wind i = some ({ st with stage := .finished }, .none)) ∧
    (∀ h, st.held = some h → st.stage = .awaitWrite ∨ (∃ s, st.stage = .completeAll s ∨ st.stage = .completeHead s) →
      st.wind i = none) ∧
    (st.stage = .finished → st.request = none →
      st.wind i = some ({ st with state := .halted, stage := .idle, failed := none }, .none))

/-- How a flush, a close and an abort wind to their end. Each waits for what cannot be recalled, discards, completes the
records one at a time, the next when the one before has been written, and ends: FLUSHED and ACTIVE or HALTED with the
flush's result; CLOSED, or ABORTED, and the release. A flush or close that a halt interrupts goes on from the halted
stream: notes/assumptions/23.md. Such a flush completes the head of an IN stream FLUSHED unless it had done so before the
halt, and ends when no FLUSHED completion is unwritten; that it does not wait for one that is not its own is the model's
choice: notes/assumptions/51.md. A packet answered DEFER in a flush: notes/assumptions/21.md. -/
def Obligations.FlushCloseAndAbortRunToTheirEnd : Prop :=
  ∀ (i : StreamId) (st : Stream),
    let formed := fun (x : Stream) (c : Completion) => some ({ x with held := some { completion := c, stage := .formed } },
      Effect.none)
    let goes := fun (stage : Stage) => some ({ st with stage := stage }, Effect.none)
    let reading := ∃ r ∈ st.reads, r.data = none
    let awaited := st.sentIndex ≠ none ∧ ∃ next n, st.seq = .bestEffortOut next true n
    let quiet := st.ring.fetches = [] ∧ st.ring.returned = [] ∧ st.held = none
    let flushedHeld := ∃ h, st.held = some h ∧ h.completion.status = .flushed
    let outgoing := fun (b : Buffer) => b.isFilling || b.isCommitted || b.isSent
    let kept := fun (b : Buffer) => b.isHeld || b.isDraining
    let left := fun (p : Buffer → Bool) => ((st.buffers.filter p).map fun b => match b with
      | .draining data _ _ _ _ written _ => data.length - written
      | b => b.count).sum
    let emptied := fun (p : Buffer → Bool) (stage : Stage) (st' : Stream) =>
      st.wind i = some (st', .none) ∧ st'.stage = stage ∧ st'.state = st.state ∧ st'.request = st.request ∧
      st'.discarded = st.discarded + left p ∧ st'.sends = st.sends ∧ st'.receives.length = st.receives.length ∧
      st'.buffers.length = st.buffers.length ∧
      ∀ k, (p (st.buffer k) = true → st'.buffer k = .free) ∧
        (p (st.buffer k) = false → (st'.buffer k).count = (st.buffer k).count)
    (st.state = .flushing ∨ st.state = .closing ∨ st.state = .aborting →
      (∀ h status, st.held = some h → st.dir = .inbound ∨ st.state ≠ .closing →
        st.stage = .completeAll status ∨ st.stage = .completeHead status ∨ st.stage = .awaitWrite → st.wind i = none) ∧
      (∀ status e es, st.held = none → st.stage = .completeAll status → st.dir = .outbound → st.state ≠ .closing →
        st.sends = e :: es → st.wind i = formed { st with sends := es } (sendCompletion i e status)) ∧
      (∀ status e es, st.held = none → st.stage = .completeAll status → st.dir = .inbound → st.receives = e :: es →
        st.wind i = formed { st with receives := es } (receiveCompletion i e status)) ∧
      (∀ status b, st.held = none → st.stage = .completeAll status → st.sends = [] → st.receives = [] →
        st.dir = .inbound ∨ st.state ≠ .closing →
        (st.bad = some b → b.formed = false → st.wind i = formed { st with bad := some { b with formed := true } }
          (badCompletion i st.dir b .aborted)) ∧
        (st.bad = none ∨ (st.bad = some b ∧ b.formed = true) → st.wind i = goes .finished))) ∧
    (st.state = .flushing →
      (st.stage = .waiting → st.dir = .outbound → reading ∨ awaited → st.wind i = none) ∧
      (st.stage = .waiting → st.dir = .outbound → ¬reading → ¬awaited →
        ∃ st', emptied outgoing .leaving st' ∧ st'.reads = []) ∧
      (st.stage = .waiting → st.dir = .inbound → st.writes ≠ [] → st.wind i = none) ∧
      (st.stage = .waiting → st.dir = .inbound → st.writes = [] → ∃ st', emptied Buffer.isDraining .leaving st' ∧
        st'.receives = st.receives.map (fun e => { e with
          issued := e.written, markIssued := e.markIssued && e.markDelivered }) ∧
        (st.buffers.any Buffer.isDraining = true → ∀ expected gap first, st.seq = .scheduledIn expected gap first →
          st'.seq = .scheduledIn expected true first)) ∧
      (st.stage = .leaving → st.headEnded = true → st.wind i = none) ∧
      (st.stage = .leaving → st.headEnded = false → st.dir = .outbound →
        st.wind i = goes (if st.sends.isEmpty then .finished else .completeAll .flushed)) ∧
      (st.stage = .leaving → st.headEnded = false → st.dir = .inbound →
        st.wind i = goes (if st.receives.isEmpty then .finished else .completeHead .flushed)) ∧
      (∀ e es, st.held = none → st.stage = .completeHead .flushed → st.receives = e :: es → st.wind i = formed
        { st with receives := es, stage := .awaitWrite, request := some .flushRest } (receiveCompletion i e .flushed)) ∧
      (st.held = none → st.stage = .awaitWrite → st.wind i = goes .finished) ∧
      (st.stage = .finished → st.wind i = some ({ st with
        state := if st.cause = none then .active else .halted, stage := .idle, request := none }, .flushed))) ∧
    (st.state = .closing → st.dir = .outbound →
      (st.sends = [] ∧ (∀ b ∈ st.buffers, b = .free) ∧ st.reads = [] ∧ quiet → st.wind i = some (st, .released)) ∧
      (st.sends ≠ [] ∨ (∃ b ∈ st.buffers, b ≠ .free) ∨ st.reads ≠ [] ∨ ¬quiet → st.wind i = none)) ∧
    (st.state = .closing → st.dir = .inbound →
      let ends := st.writes = [] ∧ (st.cause ≠ none ∨ (∀ b ∈ st.buffers, kept b = false) ∨ st.receives = [])
      (st.stage = .waiting → ¬ends → st.wind i = none) ∧
      (st.stage = .waiting → ends → ∃ st', emptied kept .leaving st') ∧
      (st.stage = .leaving → st.headEnded = true → st.wind i = none) ∧
      (st.stage = .leaving → st.headEnded = false →
        st.wind i = goes (if st.receives.isEmpty then .finished else .completeAll .closed)) ∧
      (st.stage = .finished → st.receives ≠ [] → st.wind i = goes (.completeAll .closed)) ∧
      (st.stage = .finished → st.receives = [] → quiet → (∀ b ∈ st.buffers, b.isReceiving = false) →
        st.wind i = some (st, .released)) ∧
      (st.stage = .finished → st.receives = [] → ¬quiet ∨ (∃ b ∈ st.buffers, b.isReceiving = true) →
        st.wind i = none)) ∧
    (st.state = .aborting →
      (st.stage = .waiting → reading ∨ st.writes ≠ [] → st.wind i = none) ∧
      (st.stage = .waiting → ¬reading → st.writes = [] → st.dir = .outbound →
        ∃ st', emptied outgoing (.completeAll .aborted) st' ∧ st'.reads = []) ∧
      (st.stage = .waiting → ¬reading → st.writes = [] → st.dir = .inbound → st.wind i = goes (.completeAll .aborted)) ∧
      (st.stage = .finished → st.ring.fetches = [] → st.wind i = some (st, .released)) ∧
      (st.stage = .finished → st.ring.fetches ≠ [] → st.wind i = none)) ∧
    (∀ e es, st.state = .halting → st.held = none → st.stage = .completeHead .flushed → st.receives = e :: es →
      st.wind i = formed { st with receives := es, stage := .awaitWrite, request := some .flushRest }
        (receiveCompletion i e .flushed)) ∧
    (st.state = .halting → st.stage = .finished →
      (st.request = some .flush → st.dir = .outbound → st.wind i = some ({ st with
        failed := none, request := some .flushRest }, .none)) ∧
      (st.request = some .flush → st.dir = .inbound → ∃ st', st.wind i = some (st', .none) ∧
        st'.request = some .flushRest ∧ st'.state = .halting ∧ st'.discarded = st.discarded + left kept ∧
        (∀ k, kept (st.buffer k) = true → st'.buffer k = .free) ∧ st'.receives = st.receives ∧
        st'.stage = if st.receives.isEmpty then .finished else .completeHead .flushed) ∧
      (st.request = some .flushRest → flushedHeld → st.wind i = none) ∧
      (st.request = some .flushRest → ¬flushedHeld → st.wind i = some ({ st with
        failed := none, state := .halted, stage := .idle, request := none }, .flushed)) ∧
      (st.request = some .close → st.wind i = some ({ st with
        failed := none, state := .closing, stage := .waiting }, .none))) ∧
    (∀ (env : Env) (b : Body),
      b.applyEffect env i st .released = b.release env.up i st ∧
      b.applyEffect env i st .flushed = { b with
        table := b.table.map fun e =>
          if e.held = none ∧ e.stream = some i ∧ e.code = 4 then e.complete .ok st.discarded else e })

/-- What the Ring Interface does on its own. Events go from the head of the pending list into the event ring, and the
held completions of a waiting list into their ring, one for each free position and in list order, each with the phase of
its pass, which flips where put wraps; an ARMED ring sends its interrupt message after the first of them and becomes
DISARMED. Admin fetches go out, position after position, up to what is posted and to eight records in all. The sources
whose completions were formed in one event join their rings' waiting lists in increasing stream number, and admin entries
after them in the order of the table. The records are those of 11.4, byte for byte: a completion's, an event's, and what
the completions of send, receive and bad records and of requests carry. -/
def Obligations.RingInterfaceServesItsRings : Prop :=
  ∀ b : Body,
    let served := fun (r : PartRing) (m : Nat) => { r with
      put := (r.put + m) % r.size, phase := r.phase ^^ decide (r.size ≤ r.put + m), armed := r.armed && m == 0 }
    let writes := fun (r : PartRing) (m length : Nat) (kind : Nat → RingWriteKind) (entry : Nat → Bool → List Byte) =>
      (List.range m).flatMap fun k =>
        { kind := kind k, addr := r.base + BitVec.ofNat 64 ((r.put + k) % r.size * length)
          data := entry k (r.phase ^^ decide (r.size ≤ r.put + k)) } ::
        (if k = 0 ∧ r.armed = true then [{ kind := .interrupt, addr := r.intAddr, data := le 4 r.intValue.toNat }] else [])
    let space := fun (r : PartRing) => r.size - 1 - ringSub r.size r.put r.freed
    (∀ r, b.event = some r → r.lawful →
      let m := min (space r) b.events.length
      b.issueEvents b.events.length = { b with
        event := some (served r m), events := b.events.drop m
        ringWrites := b.ringWrites ++ writes r m 16 (fun _ => .event)
          (fun k phase => (b.events[k]?.map fun e => e.bytes phase).getD []) }) ∧
    (∀ (c : Fin 4) (cr : CompletionRing) (held : Source → Held), b.completion[c] = some cr → cr.ring.lawful →
      (∀ src ∈ cr.waiting, b.heldOf src = some (held src)) → cr.waiting.Nodup → cr.waiting.length ≤ 24 →
      let m := min (space cr.ring) cr.waiting.length
      let t := b.issueCompletions 24 c
      t.completion = b.completion.set c (some { ring := served cr.ring m, waiting := cr.waiting.drop m }) ∧
      t.ringWrites = b.ringWrites ++ writes cr.ring m 32 (fun k => .completion (cr.waiting.getD k (.admin 0)))
        (fun k phase => (cr.waiting[k]?.map fun src => (held src).completion.bytes phase).getD []) ∧
      (∀ src ∈ cr.waiting, t.heldOf src = some { held src with
        stage := if src ∈ cr.waiting.take m then .writing else (held src).stage })) ∧
    (∀ (env : Env) (r : HostRing), env.running = true → b.admin = some r → r.lawful →
      ringSub r.size r.fetchPos r.taken ≤ ringSub r.size r.posted r.taken →
      let m := min (8 - (r.fetches.length + r.returned.length + b.table.length))
        (ringSub r.size r.posted r.taken - ringSub r.size r.fetchPos r.taken)
      b.fetchAdmin env 8 = { b with admin := some { r with
        fetchPos := (r.fetchPos + m) % r.size
        fetches := r.fetches ++ (List.range m).map fun k => { position := (r.fetchPos + k) % r.size, dropped := false } } }) ∧
    (∀ (c : Fin 4) (cr : CompletionRing), b.completion[c] = some cr → (b.table.map Entry.id).Nodup →
      let formed := fun (h : Option Held) => h.any fun h => h.stage == .formed
      let streams := (List.finRange 16).filter fun i => (b.stream i).any fun st => st.bound == c && formed st.held
      let entries := if c = 0 then b.table.filter fun e => formed e.held else []
      b.joinAll.completion[c] = some { cr with
        waiting := cr.waiting ++ streams.map Source.stream ++ entries.map fun e => Source.admin e.id }) ∧
    (∀ (x : Completion) (phase : Bool),
      let kind : Byte := match x.kind with
        | .admin => 1
        | .send => 2
        | .receive => 3
      let flag := fun (set : Bool) (weight : Nat) => if set then weight else 0
      x.bytes phase = [kind, x.stream, BitVec.ofNat 8 x.status.code,
          BitVec.ofNat 8 (flag x.eom 1 + flag x.gap 2 + flag x.stamp.isSome 4 + flag phase 128)] ++ le 2 x.position ++
        le 2 ((x.stamp.map BitVec.toNat).getD 0) ++ le 8 x.tag.toNat ++ le 4 x.count ++ [x.code] ++ le 11 0) ∧
    [Status.ok, .badRecord, .memoryError, .flushed, .aborted, .closed, .linkLost, .noAnswer, .peerClosed,
      .profileMismatch, .badRequest, .badStream, .streamBusy, .wrongState, .noStore, .noBandwidth, .notInProfile,
      .badProfile, .linkNotUp, .overtaken, .timeout, .roleConflict, .periodMismatch, .profileFailed].map Status.code =
      [0, 1, 2, 3, 4, 5, 6, 7, 8, 10, 16, 17, 18, 19, 20, 21, 22, 23, 24, 25, 26, 27, 28, 29] ∧
    (∀ (e : Event) (phase : Bool), (∀ ring index, e.detail = .badNotify ring index → ring < 256) →
      let source : Byte := match e.source with
        | some i => BitVec.ofNat 8 i.val
        | none => 0xFF
      let placed : Byte × List Byte := match e.detail with
        | .watch on => (1, [if on then 1 else 0] ++ le 7 0)
        | .streamHalted cause => (2, [BitVec.ofNat 8 cause.code] ++ le 7 0)
        | .scheduleMiss overrun => (3, [if overrun then 2 else 1] ++ le 7 0)
        | .linkState state cause =>
          (4, [BitVec.ofNat 8 state.code, BitVec.ofNat 8 ((cause.map DownCause.code).getD 0)] ++ le 6 0)
        | .cycleSlip old new => (5, le 2 old.toNat ++ le 2 new.toNat ++ le 4 0)
        | .badNotify ring index => (6, [BitVec.ofNat 8 ring, 0] ++ le 2 index.toNat ++ le 4 0)
      e.bytes phase = [placed.1, source, BitVec.ofNat 8 e.count, if phase then 0x80 else 0] ++ placed.2 ++ le 4 0) ∧
    (∀ (i : StreamId) (status : Status),
      let plain : Completion :=
        { kind := .send, stream := BitVec.ofNat 8 i.val, status := status, eom := false, gap := false, stamp := none,
          position := 0, tag := 0, count := 0, code := 0 }
      (∀ e, sendCompletion i e status = { plain with
        stamp := if status = .ok then e.finishCycle else none, position := e.position, tag := e.tag
        count := e.confirmed }) ∧
      (∀ e, receiveCompletion i e status = { plain with
        kind := .receive, eom := e.markDelivered, gap := e.gap, stamp := e.firstCycle, position := e.position
        tag := e.tag, count := e.written }) ∧
      (∀ r, badCompletion i .outbound r status = { plain with position := r.position, tag := r.tag } ∧
        badCompletion i .inbound r status = { plain with kind := .receive, position := r.position, tag := r.tag }) ∧
      (∀ (e : Entry) (result : Nat), e.complete status result = { e with
        work := .none
        held := some
          { stage := .formed
            completion := { plain with
              kind := .admin, stream := if 1 ≤ e.code.toNat ∧ e.code.toNat ≤ 7 then e.field else 0
              position := e.position, tag := e.tag, count := result, code := e.code } } }))

/-- A store event and the stream's watch: the measure that an ON watch names is evaluated if it has changed, and a
changed condition is kept and raises WATCH with the new condition, once. Nothing is raised where the condition stays,
where the measure stays, or with the mode OFF. The measures are those of the buffers: whole store, a DRAINING buffer
less its bytes written, and the bytes of the FILLING buffer. -/
def Obligations.WatchesFollowTheStore : Prop :=
  (∀ st : Stream,
    st.measure .openPacket = (st.buffers.map fun b => match b with
      | .filling data => data.length
      | _ => 0).sum ∧
    st.measure .wholeStore = (st.buffers.map fun b => match b with
      | .draining data _ _ _ _ written _ => data.length - written
      | b => b.count).sum) ∧
  ∀ (b : Body) (i : StreamId) (old new : Stream), b.stream i = some old →
    (∀ j, j ≠ i → (b.put i old new).stream j = b.stream j) ∧
    (new.watch = none → (b.put i old new).stream i = some new ∧ (b.put i old new).events = b.events) ∧
    (∀ w, new.watch = some w →
      let value := new.measure w.measure
      let on := match w.dir with
        | .atOrAbove => w.threshold ≤ value
        | .atOrBelow => value ≤ w.threshold
      (old.measure w.measure = value ∨ (w.condition = true ↔ on) →
        (b.put i old new).stream i = some new ∧ (b.put i old new).events = b.events) ∧
      (old.measure w.measure ≠ value → ¬(w.condition = true ↔ on) →
        (b.put i old new).stream i = some { new with watch := some { w with condition := !w.condition } } ∧
        (b.put i old new).events = raiseInto (some i) (.watch (!w.condition)) b.events))

/-! ### DATA frames -/

/-- The header of a DATA frame claims the FREE buffer with the lowest index of an open IN stream of its class and no
shorter L; otherwise the frame arrives with no buffer. Each further 64 bytes count in the claimed buffer, and an invalid
frame frees it. Outside UP, or without the signal, nothing is claimed and nothing counted, and the end of a DATA frame
is not decided: it frees the buffer that was claimed, and does nothing else. A frame in pieces, what of it is kept there,
and that a frame is not received without the signal, are the model's: notes/assumptions/15.md, 47.md and 16.md. -/
def Obligations.DataFramesClaimBuffers : Prop :=
  (∀ (s : State) (w : BitVec 64) (bytes : BitVec 512), s.fn ≠ .faulted →
    (s.lsig = false → exec (.dataHeaderArrival w) s = .next s.settle ∧
      exec (.dataArrivalStep bytes) s = .next s.settle) ∧
    (s.lsig = true → s.bp.link ≠ .up →
      (byteAt w 0 = 1 → s.body.rx = none → exec (.dataHeaderArrival w) s = .next (s.onBody fun b => { b with
        rx := some { header := DataHeader.read w, arrived := [], claim := none } }).settle) ∧
      (∀ r, s.body.rx = some r → exec (.dataArrivalStep bytes) s = .next (s.onBody fun b => { b with
        rx := some { r with arrived := (r.arrived ++ bytesOf 64 bytes).take r.header.length } }).settle)) ∧
    (s.lsig = false ∨ s.bp.link ≠ .up → ∀ (r : Reception) (rest : List Byte) (c : Instr), s.body.rx = some r →
      c = (match r.header.cls with
        | .bestEffort => .dataBestEffortEnd rest
        | .scheduled => .dataScheduledEnd rest) →
      (r.claim = none → exec c s = .next (s.onBody fun b => { b with rx := none }).settle) ∧
      (∀ k st, r.claim = some k → s.body.stream r.header.stream = some st → exec c s =
        .next ((s.withStream r.header.stream st { st with
          buffers := st.buffers.set k .free, queue := st.queue.filter (· != k) }).onBody fun b =>
            { b with rx := none }).settle))) ∧
  ∀ (s : State) (w : BitVec 64) (bytes : BitVec 512), s.receives →
    let h := DataHeader.read w
    (byteAt w 0 = 1 → s.body.rx = none →
      (∀ st k, s.body.stream h.stream = some st → st.dir = .inbound → st.cls = h.cls → h.length ≤ st.maxLen →
        st.buffers.findIdx? Buffer.isFree = some k →
        exec (.dataHeaderArrival w) s = .next ((s.withStream h.stream st { st with
          buffers := st.buffers.set k (.receiving []) }).onBody fun b => { b with
            rx := some { header := h, arrived := [], claim := some k } }).settle) ∧
      ((∀ st, s.body.stream h.stream = some st → st.dir = .outbound ∨ st.cls ≠ h.cls ∨ st.maxLen < h.length ∨
          st.buffers.findIdx? Buffer.isFree = none) →
        exec (.dataHeaderArrival w) s = .next (s.onBody fun b => { b with
          rx := some { header := h, arrived := [], claim := none } }).settle)) ∧
    (∀ r k st, s.body.rx = some r → r.claim = some k → s.body.stream r.header.stream = some st →
      let now := (r.arrived ++ bytesOf 64 bytes).take r.header.length
      exec (.dataArrivalStep bytes) s = .next ((s.withStream r.header.stream st { st with
        buffers := st.buffers.set k (.receiving now) }).onBody fun b => { b with
          rx := some { r with arrived := now } }).settle ∧
      exec .invalidFrame s = .next ((s.withStream r.header.stream st { st with
        buffers := st.buffers.set k .free, queue := st.queue.filter (· != k) }).onBody fun b =>
          { b with rx := none }).settle)

/-- The end of a best-effort DATA frame is decided by the first row of the table of R124 that applies: GONE, DEFER, or
ACCEPT of a duplicate, each of which frees the claimed buffer; or ACCEPT of the expected bit, which keeps the packet
and toggles the expected bit. A frame in pieces, the bytes of an end of another length than the frame's, and the state
that decides a frame whose stream was released and opened again during its arrival, are the model's:
notes/assumptions/15.md, 4.md and 58.md. -/
def Obligations.BestEffortFramesAreDecided : Prop :=
  ∀ (s : State) (r : Reception) (rest : List Byte), s.receives → s.body.rx = some r → r.header.cls = .bestEffort →
    r.header.length ≤ 1024 →
    let i := r.header.stream
    let c := Instr.dataBestEffortEnd rest
    let data := fit r.header.length (r.arrived ++ rest)
    let answered := fun (f : ControlFrame) => exec c s = .next ((s.onBody Body.undoClaim).withDue f).settle
    let suited := fun (st : Stream) => st.dir = .inbound ∧ st.cls = .bestEffort
    (s.body.stream i = none → answered (.gone i)) ∧
    (∀ st, s.body.stream i = some st →
      (¬suited st → answered (.gone i)) ∧
      (suited st → st.maxLen < r.header.length → answered (.gone i)) ∧
      (suited st → r.header.length ≤ st.maxLen →
        (st.state ≠ .active → answered (.defer i r.header.bit)) ∧
        (st.state = .active →
          ((∃ n ∈ s.body.lt.notices, n.stream = i ∧ n.closed = false) → answered (.defer i r.header.bit)) ∧
          ((∀ n ∈ s.body.lt.notices, n.stream = i → n.closed = true) →
            (r.claim = none → answered (.defer i r.header.bit)) ∧
            (∀ k expected, r.claim = some k → st.seq = .bestEffortIn expected →
              (expected ≠ r.header.bit → answered (.accept i r.header.bit)) ∧
              (expected = r.header.bit → exec c s = .next (((s.onBody fun b => { b with rx := none }).withStream i st
                { st with
                  buffers := st.buffers.set k (.held data r.header.mark (.bit r.header.bit) s.ce.cycle false)
                  queue := st.queue ++ [k], seq := .bestEffortIn (!expected) }).withDue
                    (.accept i r.header.bit)).settle))))))

/-- The end of a scheduled DATA frame is decided by the first row of the table of R125 that applies: dropped with no
event; dropped with the gap pending set and SCHEDULE_MISS(OVERRUN) raised; or kept, with a counter out of sequence or
a pending gap as its gap mark. A frame in pieces, the bytes of an end of another length than the frame's, the WATCH
event of an undone claim before SCHEDULE_MISS, and the state that decides a frame whose stream was released and opened
again during its arrival, are the model's: notes/assumptions/15.md, 4.md, 17.md and 58.md. -/
def Obligations.ScheduledFramesAreDecided : Prop :=
  ∀ (s : State) (r : Reception) (rest : List Byte), s.receives → s.body.rx = some r → r.header.cls = .scheduled →
    r.header.length ≤ 1024 →
    let i := r.header.stream
    let c := Instr.dataScheduledEnd rest
    let data := fit r.header.length (r.arrived ++ rest)
    (s.body.stream i = none → exec c s = .next (s.onBody Body.undoClaim).settle) ∧
    (∀ st, s.body.stream i = some st →
      (st.dir = .outbound ∨ st.cls = .bestEffort → exec c s = .next (s.onBody Body.undoClaim).settle) ∧
      (st.dir = .inbound → st.cls = .scheduled →
        (∀ expected gap first, st.seq = .scheduledIn expected gap first →
          (r.claim = none → exec c s = .next (((s.onBody fun b => { b with rx := none }).withStream i st
            { st with seq := .scheduledIn expected true first }).withEvent (some i) (.scheduleMiss true)).settle) ∧
          (∀ k, r.claim = some k →
            st.maxLen < r.header.length ∨ st.perCycle ≤ r.header.slot.toNat ∨ st.state ≠ .active →
            exec c s = .next (((s.onBody Body.undoClaim).onBody (Body.modify i Stream.setGap)).withEvent (some i)
              (.scheduleMiss true)).settle) ∧
          (∀ k, r.claim = some k → r.header.length ≤ st.maxLen → r.header.slot.toNat < st.perCycle →
            st.state = .active →
            ∃ mark : Bool, (mark = true ↔ gap = true ∨ (first = false ∧ r.header.counter ≠ expected)) ∧
              exec c s = .next ((s.onBody fun b => { b with rx := none }).withStream i st { st with
                buffers := st.buffers.set k (.held data r.header.mark (.counter r.header.counter) s.ce.cycle mark)
                queue := st.queue ++ [k], seq := .scheduledIn (r.header.counter + 1) false false }).settle))))

/-! ### Answers and notices -/

/-- An ACCEPT with the SENT buffer's bit confirms the packet: the buffer becomes FREE, its bytes and mark are credited,
the next sequence bit toggles, and the in-flight marker and the count are cleared. Any other ACCEPT is ignored, and so
is one for a packet given up at its DEFER (notes/assumptions/21.md). A GONE for a best-effort OUT stream with a SENT
packet halts a stream that can halt with PEER_CLOSED, and in HALTING abandons the packet if it is still awaited; the next
sequence bit stays. Any other GONE is ignored. The count of an abandoned packet is the model's reading, and the WATCH
event of its discard before STREAM_HALTED its choice: notes/assumptions/20.md and 17.md. -/
def Obligations.AcceptConfirmsAndGoneHalts : Prop :=
  (∀ (s : State) (i : StreamId) (bit : Bool), s.receives →
      (s.body.stream i = none → exec (.accept i bit) s = .next s.settle) ∧
      (∀ st, s.body.stream i = some st →
        (st.sentIndex = none → exec (.accept i bit) s = .next (s.withStream i st st).settle) ∧
        (∀ k data mark b answer next flight n, st.sentIndex = some k → st.buffer k = .sent data mark b answer →
          st.seq = .bestEffortOut next flight n →
          (b ≠ bit ∨ flight = false → exec (.accept i bit) s = .next (s.withStream i st st).settle) ∧
          (b = bit → flight = true → exec (.accept i bit) s = .next (s.withStream i st { st with
            buffers := st.buffers.set k .free, queue := st.queue.filter (· != k)
            sends := List.zipWith (stampFinished s.ce.cycle) st.sends
              (if mark then creditMark (creditBytes data.length st.sends) else creditBytes data.length st.sends)
            seq := .bestEffortOut (!next) false 0 }).settle)))) ∧
  (∀ (s : State) (i : StreamId), s.receives →
      (s.body.stream i = none → exec (.gone i) s = .next s.settle) ∧
      (∀ st, s.body.stream i = some st →
        (st.cls = .scheduled ∨ st.dir = .inbound ∨ st.sentIndex = none → exec (.gone i) s = .next s.settle) ∧
        (∀ k data mark b answer next flight n, st.cls = .bestEffort → st.dir = .outbound → st.sentIndex = some k →
          st.buffer k = .sent data mark b answer → st.seq = .bestEffortOut next flight n →
          (∀ j, j ≠ k → (st.buffer j).isSent = false) →
          let left := { st with
            buffers := st.buffers.set k .free, queue := st.queue.filter (· != k)
            discarded := st.discarded + data.length, seq := .bestEffortOut next false n }
          (st.mayHalt = true → exec (.gone i) s = .next ((s.withStream i st { left with
            state := .halting, cause := some .peerClosed, stage := .waiting }).withEvent (some i)
              (.streamHalted .peerClosed)).settle) ∧
          (st.state = .halting → flight = true → exec (.gone i) s = .next (s.withStream i st left).settle) ∧
          (st.state = .halting → flight = false → exec (.gone i) s = .next s.settle))))

/-- A DEFER with the SENT buffer's bit makes its answer condition DEFERRED and the unanswered-send count 0, and confirms
nothing; it is DUE at the next cycle start. In FLUSHING or HALTING it also clears the in-flight marker: the packet is
awaited no longer and goes with the discard that follows, which is the model's reading: notes/assumptions/21.md. Any
other DEFER is ignored. -/
def Obligations.DeferPutsThePacketOff : Prop :=
  ∀ (s : State) (i : StreamId) (bit : Bool), s.receives →
    (s.body.stream i = none → exec (.defer i bit) s = .next s.settle) ∧
    (∀ st, s.body.stream i = some st →
      (st.sentIndex = none → exec (.defer i bit) s = .next (s.withStream i st st).settle) ∧
      (∀ k data mark b answer next flight n, st.sentIndex = some k → st.buffer k = .sent data mark b answer →
        st.seq = .bestEffortOut next flight n →
        let put := fun (awaited : Bool) => { st with
          buffers := st.buffers.set k (.sent data mark b .deferred), seq := .bestEffortOut next awaited 0 }
        (b ≠ bit → exec (.defer i bit) s = .next (s.withStream i st st).settle) ∧
        (b = bit → st.state ≠ .flushing → st.state ≠ .halting →
          exec (.defer i bit) s = .next (s.withStream i st (put flight)).settle) ∧
        (b = bit → st.state = .flushing ∨ st.state = .halting →
          exec (.defer i bit) s = .next (s.withStream i st (put false)).settle ∧ (put false).awaitsAnswer = false ∧
          ∀ body : Body, body.eligible i (put false).advanceAnswer = false) ∧
        (∀ awaited j, ((put awaited).advanceAnswer.buffer j) = if j = k then .sent data mark b .due else st.buffer j) ∧
        ∀ awaited, (put awaited).advanceAnswer.seq = (put awaited).seq))

/-- A NOTICE is answered with a NOTICE_ACK of its kind. NOTICE(CLOSED) halts a stream that can halt with PEER_CLOSED,
and ends the wait of one HALTING for its SENT packet; NOTICE(OPENED) does the same for a best-effort OUT stream with a
SENT packet, and resets the sequence state of an open stream. A packet answered DEFER in HALTING is not awaited, and no
NOTICE touches it. The count of an abandoned packet, the packet answered DEFER, and the answer to a kind that is neither
are the model's reading, and the WATCH event of the discard before STREAM_HALTED its choice: notes/assumptions/20.md,
21.md, 25.md and 17.md. -/
def Obligations.NoticeActsOnTheStream : Prop :=
  ∀ (s : State) (i : StreamId), s.receives →
    let answered := fun (kind : Byte) => s.withDue (.noticeAck i kind)
    let initial := fun (st : Stream) => (match st.cls, st.dir with
      | .bestEffort, .outbound => SeqState.bestEffortOut false false 0
      | .bestEffort, .inbound => .bestEffortIn false
      | .scheduled, .outbound => .scheduledOut 0
      | .scheduled, .inbound => .scheduledIn 0 false true)
    (s.body.stream i = none → ∀ kind, exec (.notice i kind) s = .next (answered kind).settle) ∧
    (∀ st, s.body.stream i = some st →
      (st.mayHalt = true → exec (.notice i 2) s = .next (((answered 2).withStream i st
        (st.beginHalt .peerClosed)).withEvent (some i) (.streamHalted .peerClosed)).settle) ∧
      let awaited := st.sentIndex ≠ none ∧ ∃ next n, st.seq = .bestEffortOut next true n
      (st.state = .halting → awaited → exec (.notice i 2) s = .next ((answered 2).withStream i st st.abandon).settle) ∧
      ((st.state = .halting ∧ ¬awaited) ∨ st.state = .halted ∨ st.state = .aborting ∨
          (st.state ≠ .halting ∧ st.cause ≠ none) → exec (.notice i 2) s = .next (answered 2).settle) ∧
      (st.cls = .scheduled ∨ st.dir = .inbound ∨ st.sentIndex = none ∨ (st.state = .halting ∧ ¬awaited) →
        exec (.notice i 1) s = .next ((answered 1).withStream i st { st with seq := initial st }).settle) ∧
      (st.cls = .bestEffort → st.dir = .outbound → st.sentIndex ≠ none → exec (.notice i 1) s = .next
        (((answered 1).onBody (Body.haltOrAbandon i .peerClosed)).onBody (Body.modify i fun x =>
          { x with seq := initial st })).settle))

/-- A NOTICE_ACK removes the queued notice of its stream if the kinds are the same, and is ignored otherwise. A removed
NOTICE(OPENED) no longer holds the stream back. -/
def Obligations.NoticeAckRemovesTheNotice : Prop :=
  ∀ (s : State) (i : StreamId) (kind : Byte), s.receives →
    ((∀ n ∈ s.body.lt.notices, n.stream = i → kind ≠ (if n.closed then 2 else 1)) →
      exec (.noticeAck i kind) s = .next s.settle) ∧
    (∀ n ∈ s.body.lt.notices, n.stream = i → kind = (if n.closed then 2 else 1) →
      ∃ t : State, exec (.noticeAck i kind) s = .next t.settle ∧
        t.body.lt.notices = s.body.lt.notices.filter (·.stream != i) ∧ t.body.awaitsOpened i = false ∧
        (∀ f, f ∈ t.body.lt.due ↔ f ∈ s.body.lt.due ∧ f.isNoticeOf i = false) ∧
        (∀ f, f ∈ t.body.lt.fresh ↔ f ∈ s.body.lt.fresh ∧ f.isNoticeOf i = false) ∧
        t = { s with body := { s.body with lt := { s.body.lt with
          notices := t.body.lt.notices, due := t.body.lt.due, fresh := t.body.lt.fresh } } })

/-! ### Markers, echoes and cycles -/

/-- A CYCLE_START: in a FOLLOWER with the link UP it re-times the engine, is echoed, and starts a new cycle or re-aligns
the one under way by the table of R101; in EXCHANGING, with the first-marker flag set and the incoming exchange done, it
brings the link UP; everywhere else, in a leader always, it is ignored. CYCLE_SLIP before what the cycle's start raises
is the model's choice: notes/assumptions/17.md. -/
def Obligations.CycleStartFollowsTheMarker : Prop :=
  ∀ (s : State) (m : CycleNum), s.fn = .running → s.lsig = true →
    let c := Instr.cycleStart m
    let retimed := State.withDue { s with ce := { s.ce with
      sync := .locked, coasting := 0, expected := some (s.now + s.ce.inForce.us) } } (.cycleEcho m)
    (s.ce.role ≠ some .follower ∨ s.bp.link = .down ∨ s.bp.link = .calling → exec c s = .next s.settle) ∧
    (s.ce.role = some .follower → s.bp.link = .up → s.ce.firstMarker = false →
      (m = s.ce.cycle + 1 → exec c s = .next (retimed.startCycle m).settle) ∧
      (s.ce.sync = .coasting → m = s.ce.cycle → exec c s = .next retimed.settle) ∧
      (m ≠ s.ce.cycle + 1 → s.ce.sync ≠ .coasting ∨ m ≠ s.ce.cycle →
        exec c s = .next ((retimed.withEvent none (.cycleSlip s.ce.cycle m)).startCycle m).settle)) ∧
    (s.ce.role = some .follower → s.bp.link = .exchanging → ∀ x, s.bp.incoming = some x →
      (s.ce.firstMarker = true → x.done = true →
        exec c s = .next ((s.withDue (.cycleEcho m)).reachUp m).settle) ∧
      (s.ce.firstMarker = false ∨ x.done = false → exec c s = .next s.settle))

/-- A cycle start sets the cycle number, the budget and the turns, and in the leader makes the marker due. Every
answer condition advances, AWAITING(0) to AWAITING(1) and then to DUE, DEFERRED to DUE, and so does every notice. The
sixteenth unanswered send halts a stream that can halt with NO_ANSWER; of one HALTING it ends the wait with no event:
the packet is abandoned, the cause stays and the stream is re-synchronised. A notice that has gone a whole cycle
unacknowledged after its eighth send takes the link down with PEER_SILENT, and the STREAM_HALTED events of that event
go in increasing stream number. The order of LINK_STATE and those events, the echo-miss count of a link that a notice
takes down, and that a turn cut off by the cycle start raises no UNDERRUN, are the model's: notes/assumptions/17.md,
27.md and 50.md. -/
def Obligations.CycleStartsAdvanceAnswersAndNotices : Prop :=
  ∀ (s : State) (n : CycleNum),
    let begun : Body := { s.body with lt := { s.body.lt with
      budget := s.ce.inForce.capacity, turn := some (.at 0 0), markerDue := s.ce.role == some Role.leader } }
    let answered := (List.finRange 16).foldl (Body.advanceAnswer true) begun
    ((∃ x ∈ answered.lt.notices, x.due = false ∧ x.waited = true ∧ 8 ≤ x.sends) → ∀ t, t = s.startCycle n →
      t.bp = { s.bp with link := .down, lastDown := some .peerSilent, peerProfile := none } ∧
      t.ce = { s.ce with
        cycle := n, echoSeen := none, expected := none, periodEnds := none, sync := .unlocked, coasting := 0 } ∧
      t.body.lt = { s.body.lt with
        budget := 0, turn := none, notices := [], markerDue := false, due := [], fresh := [], lane := none } ∧
      t.body.streams = ((List.finRange 16).foldl
        (fun b i => ((b.advanceAnswer true i).halt i .linkLost).modify i fun st =>
          { st.abandon with profileChecked := false })
        (begun.raise none (.linkState .down (some .peerSilent)))).streams ∧
      (s.body.events = [] → (∀ i st, s.body.stream i = some st → st.watch = none) → ∃ halted : List StreamId,
        halted.Pairwise (· < ·) ∧ t.body.events.map Event.source = none :: halted.map some ∧
        ∀ e ∈ t.body.events, e.detail = .linkState .down (some .peerSilent) ∨
          e.detail = .streamHalted .noAnswer ∨ e.detail = .streamHalted .linkLost)) ∧
    ((∀ x ∈ answered.lt.notices, ¬(x.due = false ∧ x.waited = true ∧ 8 ≤ x.sends)) → s.startCycle n =
      { s with
        ce := { s.ce with cycle := n }
        body := { answered with lt := { answered.lt with
          notices := answered.lt.notices.map fun x =>
            if x.due then x else if x.waited then { x with due := true } else { x with waited := true }
          fresh := answered.lt.fresh ++ (answered.lt.notices.filter fun x => !x.due && x.waited).map fun x =>
            .notice x.stream (if x.closed then 2 else 1) } } }) ∧
    (∀ i : StreamId, (s.body.stream i = none → s.body.advanceAnswer true i = s.body) ∧
      ∀ st, s.body.stream i = some st → st.sentIndex = none → s.body.advanceAnswer true i = s.body.put i st st) ∧
    (∀ (i : StreamId) (st : Stream) (k : Nat) (data : List Byte) (mark b : Bool) (answer : AnswerCondition),
      s.body.stream i = some st → st.sentIndex = some k → st.buffer k = .sent data mark b answer →
      ∀ next flight count, st.seq = .bestEffortOut next flight count →
      (answer = .awaiting0 → s.body.advanceAnswer true i = s.body.put i st { st with
        buffers := st.buffers.set k (.sent data mark b .awaiting1) }) ∧
      (answer = .awaiting1 → count < 15 → s.body.advanceAnswer true i = s.body.put i st { st with
        buffers := st.buffers.set k (.sent data mark b .due), seq := .bestEffortOut next flight (count + 1) }) ∧
      (answer = .deferred → s.body.advanceAnswer true i = s.body.put i st { st with
        buffers := st.buffers.set k (.sent data mark b .due) }) ∧
      (answer = .due → s.body.advanceAnswer true i = s.body.put i st st) ∧
      (answer = .awaiting1 → 15 ≤ count → st.state = .halting → flight = true →
        ∃ st', (s.body.advanceAnswer true i).stream i = some st' ∧ st' = { st with
            buffers := st'.buffers, queue := st.queue.filter fun j => !(st.buffer j).isSent
            discarded := st'.discarded, seq := .initial st.dir st.cls, watch := st'.watch } ∧
          (∀ j, st'.buffer j = if (st.buffer j).isSent then .free else st.buffer j) ∧
          ((∀ j, j ≠ k → (st.buffer j).isSent = false) → st'.discarded = st.discarded + data.length) ∧
          ControlFrame.notice i 1 ∈ (s.body.advanceAnswer true i).lt.fresh ∧
          ∀ e ∈ (s.body.advanceAnswer true i).events, (∃ c, e.detail = .streamHalted c) → e ∈ s.body.events) ∧
      (answer = .awaiting1 → 15 ≤ count → st.mayHalt = true → ∃ st', (s.body.advanceAnswer true i).stream i = some st' ∧
        st'.state = .halting ∧ st'.cause = some .noAnswer ∧ st'.sentIndex = none ∧
        st'.seq = .initial st.dir st.cls ∧
        ControlFrame.notice i 1 ∈ (s.body.advanceAnswer true i).lt.fresh))

/-- The leader's period timer: the cycle that ends is judged by its echo, and the sixteenth miss in a row takes the link
down with PEER_SILENT; otherwise the next cycle starts. A CYCLE_ECHO of the current number in the leader with the link
UP sets echo seen, and any other is ignored. An expiry is void where the timer is stopped, or runs and its time has not
come; this and the next expiry are the model's: notes/assumptions/7.md and 32.md. -/
def Obligations.LeaderJudgesCyclesByTheirEchoes : Prop :=
  ∀ s : State, s.fn = .running →
    (∀ m, s.lsig = true →
      (s.ce.role = some .leader → s.bp.link = .up → m = s.ce.cycle →
        exec (.cycleEcho m) s = .next (State.settle { s with ce := { s.ce with echoSeen := some true } })) ∧
      (s.ce.role ≠ some .leader ∨ s.bp.link ≠ .up ∨ m ≠ s.ce.cycle → exec (.cycleEcho m) s = .next s.settle)) ∧
    (s.ce.role ≠ some .leader ∨ s.bp.link ≠ .up ∨ (∀ t, s.ce.periodEnds = some t → s.now < t) →
      exec .leaderPeriodExpiry s = .next s.settle) ∧
    (∀ t, s.ce.role = some .leader → s.bp.link = .up → s.ce.periodEnds = some t → t ≤ s.now →
      let judged := fun (misses : Nat) (seen : Option Bool) => { s with
        ce := { s.ce with echoMiss := misses, echoSeen := seen, periodEnds := some (t + s.ce.inForce.us) } }
      (s.ce.echoSeen = some true → exec .leaderPeriodExpiry s =
        .next ((judged 0 (some false)).startCycle (s.ce.cycle + 1)).settle) ∧
      (s.ce.echoSeen = some false → s.ce.echoMiss < 15 → exec .leaderPeriodExpiry s =
        .next ((judged (s.ce.echoMiss + 1) (some false)).startCycle (s.ce.cycle + 1)).settle) ∧
      (s.ce.echoSeen = some false → s.ce.echoMiss = 15 → exec .leaderPeriodExpiry s =
        .next ((judged 16 (some false)).leaveUp .peerSilent).settle))

/-- The follower's deadline passes: LOCKED and COASTING(1) to COASTING(6) coast on by one cycle on the leader's grid;
COASTING(7) loses the link with SYNC_LOST, and the sync state is LOST with the count at 7. A deadline that has not come,
as after a marker taken first, synthesizes nothing. The clock that an expiry reads is the model's:
notes/assumptions/7.md and 32.md. -/
def Obligations.FollowerCoastsOrLosesSync : Prop :=
  (∀ s : State, s.fn = .running →
    (s.ce.role ≠ some .follower ∨ s.bp.link ≠ .up ∨ (∀ t, s.ce.expected = some t → s.now < t + s.ce.inForce.grace) →
      exec .followerDeadline s = .next s.settle)) ∧
  (∀ (s : State) (t : Nat), s.fn = .running → s.ce.role = some .follower → s.bp.link = .up → s.ce.expected = some t →
    t + s.ce.inForce.grace ≤ s.now →
    (s.ce.sync = .locked ∧ s.ce.coasting = 0 ∨ s.ce.sync = .coasting ∧ s.ce.coasting < 7 →
      exec .followerDeadline s = .next (State.startCycle (s.ce.cycle + 1) { s with
        ce := { s.ce with
          sync := .coasting, coasting := s.ce.coasting + 1, expected := some (t + s.ce.inForce.us) } }).settle) ∧
    (s.ce.sync = .coasting → s.ce.coasting = 7 → ∃ u : State, exec .followerDeadline s = .next u.settle ∧
      u.bp.link = .down ∧ u.bp.lastDown = some .syncLost ∧ u.ce.sync = .lost ∧ u.ce.coasting = 7 ∧
      u.ce.cycle = s.ce.cycle ∧ u.ce.expected = none))

/-! ### Bring-up -/

/-- A HELLO by the link state it finds: ignored in DOWN, and in EXCHANGING where it equals the peer HELLO; otherwise
checked, and the first check that fails takes the link down; a HELLO that passes begins both exchanges, with chunk 0 of
the local profile; in UP it takes the link down with PEER_DOWN. A HELLO's role outside 1 and 2, and the chunk frames
that a restart drops, are the model's reading: notes/assumptions/25.md and 46.md. -/
def Obligations.HelloBeginsTheExchange : Prop :=
  ∀ (s : State) (role : Byte) (period length : BitVec 16) (check : Word), s.fn = .running → s.lsig = true →
    let c := Instr.hello role period length check
    let h : PeerHello := { role := role, period := period, length := length, check := check }
    (s.bp.link = .down → exec c s = .next s.settle) ∧
    (s.bp.link = .up → exec c s = .next (s.leaveUp .peerDown).settle) ∧
    (s.bp.link = .exchanging → s.bp.peerHello = some h → exec c s = .next s.settle) ∧
    (∀ (mine : Role) (p : Period), s.ce.role = some mine → s.ce.period = some p →
      s.bp.link = .calling ∨ (s.bp.link = .exchanging ∧ s.bp.peerHello ≠ some h) →
      (mine.code = role.toNat → exec c s = .next (s.bringUpFails .roleConflict .roleConflict).settle) ∧
      (mine.code ≠ role.toNat → p.us ≠ period.toNat →
        exec c s = .next (s.bringUpFails .periodMismatch .periodMismatch).settle) ∧
      (mine.code ≠ role.toNat → p.us = period.toNat → length.toNat < 8 ∨ 256 < length.toNat →
        exec c s = .next (s.bringUpFails .profileFailed .profileFailed).settle) ∧
      (mine.code ≠ role.toNat → p.us = period.toNat → 8 ≤ length.toNat → length.toNat ≤ 256 →
        ∃ t : State, exec c s = .next t.settle ∧ t.bp = { s.bp with
            link := .exchanging, peerHello := some h
            helloEnds := some (s.bp.helloEnds.getD (s.now + 1000))
            incoming := some { next := 0, bytes := [], done := false }
            outgoing := some { chunk := 0, sends := 1, timer := some (s.now + 1000), done := false } } ∧
          t.ce = s.ce ∧ t.body.streams = s.body.streams ∧
          t.body.lt.fresh = s.body.lt.fresh.filter (!·.isChunk) ++ [.profileChunk 0 (s.bp.localProfile.take 64)] ∧
          (s.bp.link = .calling →
            t.body.events = raiseInto none (.linkState .exchanging none) s.body.events) ∧
          (s.bp.link = .exchanging → t.body.events = s.body.events)))

/-- A PROFILE_CHUNK in EXCHANGING: a repeat is acknowledged; the chunk expected, of its length, is stored and
acknowledged, and the last one only if the profile it completes passes its checks; anything else takes the link down
with PROFILE_FAILED. In UP it is acknowledged, in DOWN and CALLING ignored. -/
def Obligations.ProfileChunksAreStored : Prop :=
  ∀ (s : State) (number : Byte) (bytes : List Byte), s.fn = .running → s.lsig = true →
    let c := Instr.profileChunk number bytes
    let failed := exec c s = .next (s.stopHello.bringUpFails .profileFailed .profileFailed).settle
    (s.bp.link = .down ∨ s.bp.link = .calling → exec c s = .next s.settle) ∧
    (s.bp.link = .up → exec c s = .next (s.withDue (.profileAck number)).settle) ∧
    (∀ h x, s.bp.link = .exchanging → s.bp.peerHello = some h → s.bp.incoming = some x →
      let n := h.length.toNat
      let chunks := (n + 63) / 64
      let k := number.toNat
      let expected := if k + 1 < chunks then 64 else n - 64 * k
      let stored : Incoming := { next := k + 1, bytes := x.bytes ++ bytes, done := x.done }
      let sound := checkValue stored.bytes = h.check ∧ validProfile n stored.bytes = true
      (k < x.next → exec c s = .next (s.stopHello.withDue (.profileAck number)).settle) ∧
      (x.next < k ∨ (x.next ≤ k ∧ chunks ≤ k) → failed) ∧
      (k = x.next → k < chunks → bytes.length ≠ expected → failed) ∧
      (k = x.next → k + 1 < chunks → bytes.length = expected → exec c s = .next (State.withDue
        { s.stopHello with bp := { s.stopHello.bp with incoming := some stored } } (.profileAck number)).settle) ∧
      (k = x.next → k + 1 = chunks → bytes.length = expected → ¬sound → failed) ∧
      (k = x.next → k + 1 = chunks → bytes.length = expected → sound →
        let done := State.withDue
          { s.stopHello with bp := { s.stopHello.bp with incoming := some { stored with done := true } } }
          (.profileAck number)
        (s.ce.role = some .leader ∧ (∃ o, s.bp.outgoing = some o ∧ o.done = true) →
          exec c s = .next (done.reachUp 0).settle) ∧
        (s.ce.role ≠ some .leader ∨ (∃ o, s.bp.outgoing = some o ∧ o.done = false) →
          exec c s = .next done.settle)))

/-- A PROFILE_ACK of the chunk in progress: the next chunk goes out with its answer timer, or after the last the
outgoing exchange is done, which brings a leader UP whose incoming exchange is done. Any other ends only the HELLO
frames, in EXCHANGING: the HELLO timer stops and a HELLO that is due is not sent. Elsewhere it is ignored. -/
def Obligations.ProfileAcksMoveTheExchange : Prop :=
  ∀ (s : State) (number : Byte), s.fn = .running → s.lsig = true →
    let c := Instr.profileAck number
    (s.bp.link ≠ .exchanging → exec c s = .next s.settle) ∧
    (∀ o x, s.bp.link = .exchanging → s.bp.outgoing = some o → s.bp.incoming = some x →
      let chunks := (s.bp.localProfile.length + 63) / 64
      let unsent := fun (fs : List ControlFrame) => fs.filter fun f => match f with
        | .hello .. => false
        | _ => true
      let quiet := { s with
        bp := { s.bp with helloEnds := none }
        body := { s.body with lt := { s.body.lt with due := unsent s.body.lt.due, fresh := unsent s.body.lt.fresh } } }
      let done := { quiet with bp := { quiet.bp with outgoing := some { o with timer := none, done := true } } }
      (o.done = true ∨ number.toNat ≠ o.chunk → exec c s = .next quiet.settle) ∧
      (o.done = false → number.toNat = o.chunk → o.chunk + 1 < chunks → exec c s = .next (State.withDue
        { quiet with bp := { quiet.bp with
          outgoing := some { chunk := o.chunk + 1, sends := 1, timer := some (s.now + 1000), done := false } } }
        (.profileChunk (BitVec.ofNat 8 (o.chunk + 1))
          ((s.bp.localProfile.drop (64 * (o.chunk + 1))).take 64))).settle) ∧
      (o.done = false → number.toNat = o.chunk → chunks ≤ o.chunk + 1 → s.ce.role = some .leader → x.done = true →
        exec c s = .next (done.reachUp 0).settle) ∧
      (o.done = false → number.toNat = o.chunk → chunks ≤ o.chunk + 1 → s.ce.role ≠ some .leader ∨ x.done = false →
        exec c s = .next done.settle))

/-- The timers of a bring-up: each expiry of the HELLO timer makes a HELLO due, if none is, and restarts the timer; the
answer timer sends the chunk again up to eight times, and then the link goes down with PROFILE_FAILED; the bring-up
timer takes it down with TIMEOUT. An expiry is void where its timer is stopped, or runs and its time has not come, as
after an acknowledgement taken first; the clock that an expiry reads is the model's: notes/assumptions/7.md and 32.md.
-/
def Obligations.BringUpTimersExpire : Prop :=
  ∀ (s : State) (t : Nat), s.fn = .running →
    ((∀ t, s.bp.helloEnds = some t → s.now < t) → exec .helloTimerExpiry s = .next s.settle) ∧
    ((∀ o t, s.bp.outgoing = some o → o.timer = some t → s.now < t) →
      exec .answerTimerExpiry s = .next s.settle) ∧
    ((∀ t, s.bp.bringUpEnds = some t → s.now < t) → exec .bringUpTimerExpiry s = .next s.settle) ∧
    (s.bp.helloEnds = some t → t ≤ s.now →
      let late := { s with bp := { s.bp with helloEnds := some (s.now + 1000) } }
      ((∃ f ∈ s.body.lt.due ++ s.body.lt.fresh, f.isHello = true) →
        exec .helloTimerExpiry s = .next late.settle) ∧
      ((∀ f ∈ s.body.lt.due ++ s.body.lt.fresh, f.isHello = false) → ∀ (role : Role) (p : Period),
        s.ce.role = some role → s.ce.period = some p →
        exec .helloTimerExpiry s = .next (late.withDue (.hello (BitVec.ofNat 8 role.code) (BitVec.ofNat 16 p.us)
          (BitVec.ofNat 16 s.bp.localProfile.length) (checkValue s.bp.localProfile))).settle)) ∧
    (∀ o, s.bp.outgoing = some o → o.timer = some t → t ≤ s.now →
      (o.sends < 8 → exec .answerTimerExpiry s = .next (State.withDue { s with
        bp := { s.bp with
          outgoing := some { chunk := o.chunk, sends := o.sends + 1, timer := some (s.now + 1000), done := false } } }
        (.profileChunk (BitVec.ofNat 8 o.chunk) ((s.bp.localProfile.drop (64 * o.chunk)).take 64))).settle) ∧
      (8 ≤ o.sends → exec .answerTimerExpiry s = .next (s.bringUpFails .profileFailed .profileFailed).settle)) ∧
    (s.bp.bringUpEnds = some t → t ≤ s.now →
      exec .bringUpTimerExpiry s = .next (s.bringUpFails .timeout .timeout).settle)

/-- FAREWELL takes an UP or EXCHANGING link down with PEER_DOWN, a loss of signal any link that is not DOWN with
NO_SIGNAL; in the other link states a FAREWELL is ignored and a loss of signal changes only the signal. A signal that
appears changes only the signal. ACCEPT, DEFER, GONE, NOTICE and NOTICE_ACK change nothing outside UP, and without the
signal no frame changes anything: that it is not received is the model's reading: notes/assumptions/16.md. -/
def Obligations.FarewellAndSignalTakeTheLinkDown : Prop :=
  (∀ (s : State) (c : Instr), s.fn ≠ .faulted →
    let transfer := (∃ i bit, c = .accept i bit ∨ c = .defer i bit) ∨ (∃ i, c = .gone i) ∨
      ∃ i kind, c = .notice i kind ∨ c = .noticeAck i kind
    let other := (∃ n, c = .cycleStart n ∨ c = .cycleEcho n) ∨
      (∃ role period length check, c = .hello role period length check) ∨ (∃ n bytes, c = .profileChunk n bytes) ∨
      (∃ n, c = .profileAck n) ∨ c = .farewell
    (transfer → s.bp.link ≠ .up ∨ s.lsig = false → exec c s = .next s.settle) ∧
    (other → s.lsig = false → exec c s = .next s.settle)) ∧
  ∀ s : State, s.fn = .running →
    let fallen := { s with lsig := false, bp := { s.bp with signal := false } }
    (s.lsig = true →
      (s.bp.link = .down ∨ s.bp.link = .calling → exec .farewell s = .next s.settle) ∧
      (s.bp.link = .exchanging → exec .farewell s = .next (s.bringUpFails .peerDown .aborted).settle) ∧
      (s.bp.link = .up → exec .farewell s = .next (s.leaveUp .peerDown).settle)) ∧
    (s.bp.signal = false ∨ s.bp.link = .down → exec .lossOfSignal s = .next fallen.settle) ∧
    (s.bp.signal = true → s.bp.link = .calling ∨ s.bp.link = .exchanging →
      exec .lossOfSignal s = .next (fallen.bringUpFails .noSignal .aborted).settle) ∧
    (s.bp.signal = true → s.bp.link = .up → exec .lossOfSignal s = .next (fallen.leaveUp .noSignal).settle) ∧
    exec .signalPresent s = .next (State.settle { s with lsig := true, bp := { s.bp with signal := true } })

/-- What going down does. From CALLING or EXCHANGING: the timers stop, the exchanges go, and LINK_STATE(DOWN, cause)
is raised; the streams and the engine stay. From UP: the peer profile goes, the engine stops, Link Transfer is
cleared, every stream that can halt halts with LINK_LOST, every SENT packet is abandoned, one of a HALTING stream and
one answered DEFER too, so that no answer condition remains, and every profile-check flag is clear; LINK_STATE(DOWN,
cause) is raised, and STREAM_HALTED for each stream that halts, in increasing stream number. The frames dropped with
the link, the counts that stay and LINK_STATE first are the model's: notes/assumptions/26.md, 20.md, 27.md and 17.md.
-/
def Obligations.GoingDown : Prop :=
  ∀ (s : State) (cause : DownCause) (status : Status),
    (∀ t, t = s.bringUpFails cause status →
      t.bp = { s.bp with
        link := .down, lastDown := some cause, pendingLinkUp := none, bringUpEnds := none, helloEnds := none
        peerHello := none, outgoing := none, incoming := none } ∧
      t.ce = s.ce ∧ t.body.streams = s.body.streams ∧
      t.body.events = raiseInto none (.linkState .down (some cause)) s.body.events ∧
      (∀ e ∈ s.body.table, e.held = none → s.bp.pendingLinkUp = some e.id → e.complete status 0 ∈ t.body.table)) ∧
    (∀ t, t = s.leaveUp cause →
      t.bp = { s.bp with link := .down, lastDown := some cause, peerProfile := none } ∧
      t.ce.echoSeen = none ∧ t.ce.expected = none ∧ t.ce.periodEnds = none ∧ t.ce.role = s.ce.role ∧
      t.ce.period = s.ce.period ∧ t.ce.inForce = s.ce.inForce ∧ t.ce.cycle = s.ce.cycle ∧
      (cause ≠ .syncLost → t.ce.sync = .unlocked ∧ t.ce.coasting = 0) ∧
      (cause = .syncLost → t.ce.sync = s.ce.sync ∧ t.ce.coasting = s.ce.coasting) ∧
      (cause ≠ .peerSilent → t.ce.echoMiss = 0) ∧ (cause = .peerSilent → t.ce.echoMiss = s.ce.echoMiss) ∧
      (∃ e ∈ t.body.events, e.source = none ∧ e.detail = .linkState .down (some cause)) ∧
      (∀ i st, s.body.stream i = some st → st.mayHalt = true →
        ∃ e ∈ t.body.events, e.source = some i ∧ e.detail = .streamHalted .linkLost) ∧
      (∀ i, (∀ st, s.body.stream i = some st → st.mayHalt = false) → ∀ e, e.source = some i →
        (∃ c, e.detail = .streamHalted c) → (e ∈ t.body.events ↔ e ∈ s.body.events)) ∧
      (s.body.events = [] → (∀ i st, s.body.stream i = some st → st.watch = none) → t.body.events =
        { source := none, detail := .linkState .down (some cause), count := 1 } ::
        ((List.finRange 16).filter fun i => (s.body.stream i).any Stream.mayHalt).map fun i =>
          { source := some i, detail := .streamHalted .linkLost, count := 1 }) ∧
      t.body.lt = { s.body.lt with
        budget := 0, turn := none, notices := [], markerDue := false, due := [], fresh := [], lane := none } ∧
      t.body.table = s.body.table ∧
      (∀ i, t.body.stream i = none ↔ s.body.stream i = none) ∧
      (∀ i st st', s.body.stream i = some st → t.body.stream i = some st' →
        let abandons := st.buffers.any Buffer.isSent
        st' = { st with
          state := if st.mayHalt then .halting else st.state
          cause := if st.mayHalt then some .linkLost else st.cause
          stage := if st.mayHalt then .waiting else st.stage
          profileChecked := false
          buffers := st.buffers.map fun b => if b.isSent then .free else b
          queue := st.queue.filter fun k => !(st.buffer k).isSent
          discarded := st.discarded + ((st.buffers.filter Buffer.isSent).map Buffer.count).sum
          seq := (match st.seq with
            | .bestEffortOut next flight n => .bestEffortOut next (flight && !abandons) n
            | q => q)
          watch := st'.watch }))

/-- What reaching UP does to the open streams: the sequence states take their initial values, and then the streams that
can halt are examined in increasing stream number. One that the peer profile admits and, if it is SCHEDULED OUT, whose
reservation fits the reservable amount of the new period together with those of the SCHEDULED OUT streams that have
passed before it, has its profile-check flag set; any other halts with PROFILE_MISMATCH. Then the first cycle starts,
and the LINK_UP completes. LINK_STATE(UP) before those halts' events is the model's choice: notes/assumptions/17.md. -/
def Obligations.ReachingUpExaminesTheStreams : Prop :=
  (∀ (b : Body) (peer : List Byte) (reservable : Nat), ∃ sum : Nat → Nat, sum 0 = 0 ∧
    let after := b.examine peer reservable
    after.reservedSum ≤ reservable ∧
    ∀ i : StreamId,
      (b.stream i = none → after.stream i = none ∧ sum (i.val + 1) = sum i.val) ∧
      (∀ st, b.stream i = some st → ∃ st', after.stream i = some st' ∧
        let reserves := st.cls = .scheduled ∧ st.dir = .outbound
        let need := st.perCycle * (st.maxLen + 12)
        let passes := peerAllows (some peer) i st = true ∧ (reserves → sum i.val + need ≤ reservable)
        (st.mayHalt = false → st' = st ∧ sum (i.val + 1) = sum i.val) ∧
        (st.mayHalt = true → passes → st' = { st with profileChecked := true } ∧
          (reserves → sum (i.val + 1) = sum i.val + need) ∧ (¬reserves → sum (i.val + 1) = sum i.val)) ∧
        (st.mayHalt = true → ¬passes → st' = { st with
          state := .halting, cause := some .profileMismatch, stage := .waiting } ∧ sum (i.val + 1) = sum i.val ∧
          ∃ e ∈ after.events, e.source = some i ∧ e.detail = .streamHalted .profileMismatch))) ∧
  (∀ (s : State) (n : CycleNum) (p : Period), s.ce.period = some p →
    let peer := (s.bp.incoming.map Incoming.bytes).getD []
    let leader := s.ce.role == some Role.leader
    ∃ b : Body,
      (∀ i, b.stream i = (s.body.stream i).map fun st => { st with
        seq := match st.cls, st.dir with
          | .bestEffort, .outbound => .bestEffortOut false false 0
          | .bestEffort, .inbound => .bestEffortIn false
          | .scheduled, .outbound => .scheduledOut 0
          | .scheduled, .inbound => .scheduledIn 0 false true }) ∧
      b.events = raiseInto none (.linkState .up none) s.body.events ∧ b.lt.roundRobin = 15 ∧ b.lt.notices = [] ∧
      b.blocks = s.body.blocks ∧ b.table = s.body.table ∧
      s.reachUp n = State.startCycle n { s with
        bp := { s.bp with
          link := .up, pendingLinkUp := none, bringUpEnds := none, helloEnds := none, peerHello := none
          outgoing := none, incoming := none, peerProfile := some peer }
        ce := { s.ce with
          inForce := p, sync := .locked, coasting := 0, echoMiss := if leader then 0 else s.ce.echoMiss
          echoSeen := if leader then some false else none
          periodEnds := if leader then some (s.now + p.us) else none
          expected := if leader then none else some (s.now + p.us)
          firstMarker := leader && s.ce.firstMarker }
        body := { b.examine peer p.reservable with
          table := s.body.table.map fun e =>
            if e.held = none ∧ s.bp.pendingLinkUp = some e.id then e.complete .ok 0 else e } })

/-! ### The transmit lane -/

/-- The next frame on a free lane: the leader's marker, the oldest due control frame, and in UP the next DATA frame of
the cycle. A scheduled turn sends from the head of its stream's committed queue up to packets per cycle; a stream that
cannot send passes its turn on, with SCHEDULE_MISS(UNDERRUN) where it ends short with data waiting. With the turns
over, the first stream after the round-robin position that is eligible, and whose head fits the budget, sends its
head. A NOTICE counts as sent when its frame starts, and a packet given up at its DEFER is not sent again:
notes/assumptions/18.md and 21.md. A turn that its stream can no longer take passes on with no UNDERRUN, and turns
move only where a DATA frame may start: notes/assumptions/49.md and 53.md. That a scheduled frame longer than the
budget left is sent too, and the budget stops at 0, is the model's choice: notes/assumptions/59.md. The frames that
became due in one event join those due before: frames that name no stream first, then in increasing stream number;
that two of one stream, or of none, keep the order in which they became due is the model's choice:
notes/assumptions/56.md. -/
def Obligations.FramesAreChosenInOrder : Prop :=
  ∀ (env : Env) (b : Body),
    let onLane := fun (lt : LinkTransfer) => { b with lt := lt }
    let idle := b.lt.lane = none ∧ b.lt.markerDue = false ∧ b.lt.due = []
    let named := fun (f : ControlFrame) => match f with
      | .accept i _ => i.val + 1
      | .defer i _ => i.val + 1
      | .gone i => i.val + 1
      | .notice i _ => i.val + 1
      | .noticeAck i _ => i.val + 1
      | _ => 0
    (∃ joined : List ControlFrame, b.mergeDue = onLane { b.lt with due := b.lt.due ++ joined, fresh := [] } ∧
      joined.Pairwise (fun f g => named f ≤ named g) ∧
      ∀ n, joined.filter (named · == n) = b.lt.fresh.filter (named · == n)) ∧
    (b.lt.lane ≠ none → b.startFrame env = b) ∧
    (b.lt.lane = none → b.lt.markerDue = true → b.startFrame env =
      onLane { b.lt with markerDue := false, lane := some (.control (.cycleStart env.cycle)) }) ∧
    (∀ f fs, b.lt.lane = none → b.lt.markerDue = false → b.lt.due = f :: fs → b.startFrame env =
      onLane { b.lt with
        due := fs, lane := some (.control f)
        notices := (match f with
          | .notice i _ => b.lt.notices.map fun n =>
            if n.stream = i then { n with sends := n.sends + 1, waited := false, due := false } else n
          | _ => b.lt.notices) }) ∧
    (idle → env.up = false → b.startFrame env = b) ∧
    (∀ (i : StreamId) (n : Nat), idle → env.up = true → b.lt.turn = some (.at i n) →
      let passed := onLane { b.lt with turn := some (if h : i.val + 1 < 16 then .at ⟨i.val + 1, h⟩ 0 else .over) }
      (b.stream i = none → b.startFrame env = passed.startFrame env) ∧
      (∀ st, b.stream i = some st →
        let serves := st.cls = .scheduled ∧ st.dir = .outbound ∧
          (st.state = .active ∨ (st.state = .closing ∧ st.cause = none))
        (¬serves → b.startFrame env = passed.startFrame env) ∧
        (serves → st.perCycle ≤ n → b.startFrame env = passed.startFrame env) ∧
        (serves → n < st.perCycle → st.queue = [] →
          let short := 0 < st.openPacket ∨
            ∃ e ∈ st.sends, e.confirmed ≠ e.length ∨ (e.eom = true ∧ e.markConfirmed = false)
          (short → b.startFrame env = (passed.raise (some i) (.scheduleMiss false)).startFrame env) ∧
          (¬short → b.startFrame env = passed.startFrame env)) ∧
        (∀ k ks data mark counter, serves → n < st.perCycle → st.queue = k :: ks → st.buffer k = .committed data mark →
          st.seq = .scheduledOut counter → b.startFrame env = onLane { b.lt with
            turn := some (.at i (n + 1)), budget := b.lt.budget - (data.length + 12)
            lane := some (.data
              { stream := i, cls := .scheduled, mark := mark, bit := false, counter := counter,
                slot := BitVec.ofNat 8 n, length := data.length } k data) }))) ∧
    (idle → env.up = true → b.lt.turn = some .over →
      let canSend := fun (i : StreamId) => ∃ st k ks, b.stream i = some st ∧ st.cls = .bestEffort ∧ st.dir = .outbound ∧
        (∀ n ∈ b.lt.notices, n.stream = i → n.closed = true) ∧ st.queue = k :: ks ∧
        (st.buffer k).count + 12 ≤ b.lt.budget ∧
        ((st.buffer k).isCommitted = true ∧ (st.state = .active ∨ (st.state = .closing ∧ st.cause = none)) ∨
          (∃ data mark bit next n, st.buffer k = .sent data mark bit .due ∧ st.seq = .bestEffortOut next true n) ∧
            (st.state = .active ∨ st.state = .flushing ∨ st.state = .halting ∨ (st.state = .closing ∧ st.cause = none)))
      let after := fun (i : StreamId) => (i.val + 15 - b.lt.roundRobin.val) % 16
      ((∀ i, ¬canSend i) → b.startFrame env = b) ∧
      (∀ (i : StreamId) (st : Stream) (k : Nat) (ks : List Nat) (next flight : Bool) (count : Nat), canSend i →
        (∀ j, after j < after i → ¬canSend j) → b.stream i = some st → st.queue = k :: ks →
        st.seq = .bestEffortOut next flight count →
        (∀ data mark bit st', (st.buffer k = .committed data mark ∧ bit = next ∧
              st' = { st with
                buffers := st.buffers.set k (.sent data mark bit .awaiting0), seq := .bestEffortOut next true count }) ∨
            (st.buffer k = .sent data mark bit .due ∧
              st' = { st with buffers := st.buffers.set k (.sent data mark bit .awaiting0) }) →
          ∃ t, t = b.put i st st' ∧ b.startFrame env = { t with lt := { t.lt with
            budget := b.lt.budget - (data.length + 12), roundRobin := i
            lane := some (.data
              { stream := i, cls := .bestEffort, mark := mark, bit := bit, counter := 0, slot := 0,
                length := data.length } k data) } })))

/-- The last byte of the frame under way has been sent: the lane is free. A scheduled packet's counter rises, and the
packet is confirmed if its stream is ACTIVE, or CLOSING with its halt cause absent; a FAREWELL completes the LINK_DOWN
that waits for it. With no frame under way nothing ends. That the counter of a packet that is not confirmed rises is the
model's reading: notes/assumptions/19.md. -/
def Obligations.FramesEndOnTheLane : Prop :=
  ∀ s : State, s.fn = .running ∨ s.fn = .stopping →
    let c := Instr.transmitFrameEnd
    let freed := s.onBody fun b => { b with lt := { b.lt with lane := none } }
    (s.body.lt.lane = none → exec c s = .next s.settle) ∧
    (∀ f, s.body.lt.lane = some (.control f) → f.isFarewell = false → exec c s = .next freed.settle) ∧
    (s.body.lt.lane = some (.control .farewell) → exec c s = .next (freed.onBody fun b => { b with
      table := b.table.map fun e => if e.held = none ∧ e.code = 9 then e.complete .ok 0 else e }).settle) ∧
    (∀ h k p, s.body.lt.lane = some (.data h k p) →
      (h.cls = .bestEffort → exec c s = .next freed.settle) ∧
      (h.cls = .scheduled → ∀ st counter, s.body.stream h.stream = some st → st.seq = .scheduledOut counter →
        (st.state = .active ∨ (st.state = .closing ∧ st.cause = none) →
          exec c s = .next (freed.withStream h.stream st { st with
            seq := .scheduledOut (counter + 1), buffers := st.buffers.set k .free
            queue := st.queue.filter (· != k)
            sends := List.zipWith (stampFinished s.ce.cycle) st.sends
              (if (st.buffer k).mark then creditMark (creditBytes (st.buffer k).count st.sends)
                else creditBytes (st.buffer k).count st.sends) }).settle) ∧
        (st.state ≠ .active → st.state ≠ .closing ∨ st.cause ≠ none →
          exec c s = .next (freed.withStream h.stream st { st with seq := .scheduledOut (counter + 1) }).settle)))

/-- Bytes confirmed are credited in ring order: none is lost while an entry lacks one, no entry passes its length, an
entry is credited only when every earlier one has its length, and nothing else of an entry changes. The packet's mark
goes to the first entry whose mark is carried and not yet confirmed, and to it alone. An entry that the event made
finished takes the cycle in force as its finish cycle, and no other does. -/
def Obligations.ConfirmedBytesAreCreditedInRingOrder : Prop :=
  (∀ (n : Nat) (es : List SendEntry), (∀ e ∈ es, e.confirmed ≤ e.length) →
    let after := creditBytes n es
    after.length = es.length ∧
    (after.map SendEntry.confirmed).sum =
      (es.map SendEntry.confirmed).sum + min n ((es.map fun e => e.length - e.confirmed).sum) ∧
    (∀ (k : Nat) (e e' : SendEntry), es[k]? = some e → after[k]? = some e' → e' = { e with confirmed := e'.confirmed } ∧
      e.confirmed ≤ e'.confirmed ∧ e'.confirmed ≤ e.length ∧
      (e.confirmed < e'.confirmed → ∀ (j : Nat) (x : SendEntry), j < k → after[j]? = some x → x.confirmed = x.length))) ∧
  (∀ es : List SendEntry,
    let lacks := fun (e : SendEntry) => e.eom = true ∧ e.markCarried = true ∧ e.markConfirmed = false
    ((∀ e ∈ es, ¬lacks e) → creditMark es = es) ∧
    (∀ before e after, es = before ++ e :: after → (∀ x ∈ before, ¬lacks x) → lacks e →
      creditMark es = before ++ { e with markConfirmed := true } :: after)) ∧
  (∀ (cycle : CycleNum) (old new : SendEntry),
    let finished := fun (e : SendEntry) => e.confirmed = e.length ∧ (e.eom = true → e.markConfirmed = true)
    (¬finished old → finished new → stampFinished cycle old new = { new with finishCycle := some cycle }) ∧
    (finished old ∨ ¬finished new → stampFinished cycle old new = new)) ∧
  (∀ (st : Stream) (n : Nat) (mark : Bool) (cycle : CycleNum), st.credit n mark cycle = { st with
    sends := List.zipWith (stampFinished cycle) st.sends
      (if mark then creditMark (creditBytes n st.sends) else creditBytes n st.sends) })

/-! ### Frames as bytes -/

/-- Every frame the part sends is read back as what it is. A control frame is its command. A DATA frame, whose class
uses no other class's fields, is its header, its payload in steps of 64 bytes, and its end with the rest. A frame whose
check value differs, whose kind is none of the twelve, or whose length is not that of its kind, ends as an invalid
frame. The pieces of a frame are the model's: notes/assumptions/15.md. -/
def Obligations.FramesAreReadAsSent : Prop :=
  (∀ f : ControlFrame, (∀ n bs, f = .profileChunk n bs → bs.length < 2 ^ 16) →
    commandsOfFrame (Lane.control f).bytes = [f.command]) ∧
  (∀ (h : DataHeader) (k : Nat) (payload : List Byte), payload.length = h.length → h.length ≤ 1024 →
    (h.cls = .bestEffort → h.counter = 0 ∧ h.slot = 0) → (h.cls = .scheduled → h.bit = false) →
    ∃ (w : BitVec 64) (steps : List (BitVec 512)) (rest : List Byte),
      commandsOfFrame (Lane.data h k payload).bytes = .dataHeaderArrival w :: steps.map .dataArrivalStep ++
        [match h.cls with
          | .bestEffort => .dataBestEffortEnd rest
          | .scheduled => .dataScheduledEnd rest] ∧
      byteAt w 0 = 1 ∧ DataHeader.read w = h ∧ steps.flatMap (bytesOf 64) ++ rest = payload ∧ rest.length < 64) ∧
  (∀ frame : List Byte,
    let kind := (frame.getD 0 0).toNat
    let bytes := frame.length - 4
    let announced := leVal ((frame.drop 4).take 2)
    checkPasses frame = false ∨ 12 < kind ∨ kind = 0 ∨
        (kind = 1 ∧ (bytes < 8 ∨ bytes ≠ 8 + announced ∨ 1024 < announced)) ∨ (kind = 9 ∧ bytes ≠ 12) ∨
        (kind = 10 ∧ (bytes < 8 ∨ bytes ≠ 8 + announced)) ∨ (kind ∈ [2, 3, 4, 5, 6, 7, 8, 11, 12] ∧ bytes ≠ 4) →
      (commandsOfFrame frame).getLast? = some .invalidFrame ∧
      ∀ c ∈ commandsOfFrame frame, c = .invalidFrame ∨ (∃ w, c = .dataHeaderArrival w) ∨ ∃ x, c = .dataArrivalStep x)

/-! ### Laws that every step keeps -/

/-- Every step keeps the laws of the link, the bring-up and the cycle engine. -/
def Obligations.LinkLawIsKept : Prop :=
  ∀ s t : State, LinkLaw s → step s = .next t → LinkLaw t

/-- Every step keeps the laws of the function state. -/
def Obligations.FunctionLawIsKept : Prop :=
  ∀ s t : State, LinkLaw s → FunctionLaw s → step s = .next t → FunctionLaw t

/-- Every step keeps the laws of the pending events and the notices, and of the rings: what is under way never passes
the room for it. -/
def Obligations.EventNoticeAndRingLawsAreKept : Prop :=
  ∀ s t : State, LinkLaw s → EventLaw s → TransferLaw s → RingLaw s → step s = .next t →
    EventLaw t ∧ TransferLaw t ∧ RingLaw t

/-- Every step keeps the law of the buffer records. -/
def Obligations.StoreLawIsKept : Prop :=
  ∀ s t : State, StoreLaw s → step s = .next t → StoreLaw t

/-- Every step keeps the law of the block map, and keeps the reserved sum within the reservable amount of the period in
force. -/
def Obligations.BlockAndReservationLawsAreKept : Prop :=
  (∀ s t : State, BlockLaw s → step s = .next t → BlockLaw t) ∧
  (∀ s t : State, ReservationLaw s → step s = .next t → ReservationLaw t)
end

