-- ==== Sys2Proof/Laws/State.lean ====
section
/-! SUPPORT. The fields of the part after each named update, one lemma for each, true by unfolding the update once. -/

namespace Sys2Proof.Machine

open Sys2Proof

/-! ### Updates of the body alone -/

@[simp] theorem State.onBody_body (f : Body → Body) (s : State) : (s.onBody f).body = f s.body := rfl
@[simp] theorem State.onBody_fn (f : Body → Body) (s : State) : (s.onBody f).fn = s.fn := rfl
@[simp] theorem State.onBody_fault (f : Body → Body) (s : State) : (s.onBody f).fault = s.fault := rfl
@[simp] theorem State.onBody_heldStop (f : Body → Body) (s : State) : (s.onBody f).heldStop = s.heldStop := rfl
@[simp] theorem State.onBody_cbLo (f : Body → Body) (s : State) : (s.onBody f).cbLo = s.cbLo := rfl
@[simp] theorem State.onBody_cbHi (f : Body → Body) (s : State) : (s.onBody f).cbHi = s.cbHi := rfl
@[simp] theorem State.onBody_now (f : Body → Body) (s : State) : (s.onBody f).now = s.now := rfl
@[simp] theorem State.onBody_lsig (f : Body → Body) (s : State) : (s.onBody f).lsig = s.lsig := rfl
@[simp] theorem State.onBody_bp (f : Body → Body) (s : State) : (s.onBody f).bp = s.bp := rfl
@[simp] theorem State.onBody_ce (f : Body → Body) (s : State) : (s.onBody f).ce = s.ce := rfl
@[simp] theorem State.onBody_pending (f : Body → Body) (s : State) : (s.onBody f).pending = s.pending := rfl
@[simp] theorem State.onBody_isUp (f : Body → Body) (s : State) : (s.onBody f).isUp = s.isUp := rfl
@[simp] theorem State.onBody_env (f : Body → Body) (s : State) : (s.onBody f).env = s.env := rfl

theorem State.onBody_onBody (f g : Body → Body) (s : State) : (s.onBody f).onBody g = s.onBody (g ∘ f) := rfl

theorem State.isUp_iff (s : State) : s.isUp = true ↔ s.bp.link = .up := by simp [State.isUp]

theorem State.isUp_false_iff (s : State) : s.isUp = false ↔ s.bp.link ≠ .up := by simp [State.isUp]

/-! ### Leaving UP -/

@[simp] theorem State.leaveUpWith_bp (f : Body → Body) (c : DownCause) (s : State) :
    (s.leaveUpWith f c).bp = { s.bp with link := .down, lastDown := some c, peerProfile := none } := rfl
@[simp] theorem State.leaveUpWith_ce (f : Body → Body) (c : DownCause) (s : State) :
    (s.leaveUpWith f c).ce = s.ce.stop c := rfl
@[simp] theorem State.leaveUpWith_fn (f : Body → Body) (c : DownCause) (s : State) : (s.leaveUpWith f c).fn = s.fn := rfl
@[simp] theorem State.leaveUpWith_lt (f : Body → Body) (c : DownCause) (s : State) :
    (s.leaveUpWith f c).body.lt = s.body.lt.stop := rfl
@[simp] theorem State.leaveUpWith_now (f : Body → Body) (c : DownCause) (s : State) :
    (s.leaveUpWith f c).now = s.now := rfl
@[simp] theorem State.leaveUp_body (c : DownCause) (s : State) : (s.leaveUp c).body =
    { (s.body.raise none (.linkState .down (some c))).loseLink with lt := s.body.lt.stop } := rfl
@[simp] theorem State.leaveUp_bp (c : DownCause) (s : State) :
    (s.leaveUp c).bp = { s.bp with link := .down, lastDown := some c, peerProfile := none } := rfl
@[simp] theorem State.leaveUp_ce (c : DownCause) (s : State) : (s.leaveUp c).ce = s.ce.stop c := rfl
@[simp] theorem State.leaveUp_fn (c : DownCause) (s : State) : (s.leaveUp c).fn = s.fn := rfl
@[simp] theorem State.leaveUp_now (c : DownCause) (s : State) : (s.leaveUp c).now = s.now := rfl

/-! ### A fault -/

@[simp] theorem State.enterFault_eq (code : FaultCode) (s : State) : s.enterFault code = s.faulted code := rfl
@[simp] theorem State.faulted_fn (code : FaultCode) (s : State) : (s.faulted code).fn = .faulted := rfl
@[simp] theorem State.faulted_fault (code : FaultCode) (s : State) : (s.faulted code).fault = some code := rfl
@[simp] theorem State.faulted_bp (code : FaultCode) (s : State) : (s.faulted code).bp = s.bp := rfl
@[simp] theorem State.faulted_ce (code : FaultCode) (s : State) : (s.faulted code).ce = s.ce := rfl
@[simp] theorem State.faulted_streams (code : FaultCode) (s : State) :
    (s.faulted code).body.streams = s.body.streams := rfl

/-! ### The words of statements -/

@[simp] theorem State.withStream_bp (s : State) (i : StreamId) (old new : Stream) :
    (s.withStream i old new).bp = s.bp := rfl
@[simp] theorem State.withStream_ce (s : State) (i : StreamId) (old new : Stream) :
    (s.withStream i old new).ce = s.ce := rfl
@[simp] theorem State.withStream_body (s : State) (i : StreamId) (old new : Stream) :
    (s.withStream i old new).body = s.body.put i old new := rfl
@[simp] theorem State.withDue_body (s : State) (f : ControlFrame) : (s.withDue f).body = s.body.addDue f := rfl
@[simp] theorem State.withDue_bp (s : State) (f : ControlFrame) : (s.withDue f).bp = s.bp := rfl
@[simp] theorem State.withDue_ce (s : State) (f : ControlFrame) : (s.withDue f).ce = s.ce := rfl
@[simp] theorem State.withEvent_body (s : State) (source : Option StreamId) (d : Detail) :
    (s.withEvent source d).body = s.body.raise source d := rfl
@[simp] theorem State.withEvent_bp (s : State) (source : Option StreamId) (d : Detail) :
    (s.withEvent source d).bp = s.bp := rfl
@[simp] theorem State.withEvent_ce (s : State) (source : Option StreamId) (d : Detail) :
    (s.withEvent source d).ce = s.ce := rfl
@[simp] theorem State.withRequest_bp (s : State) (ring : HostRing) (r : AdminRecord) (a : Bool) :
    (s.withRequest ring r a).bp = s.bp := rfl
@[simp] theorem State.withRequest_ce (s : State) (ring : HostRing) (r : AdminRecord) (a : Bool) :
    (s.withRequest ring r a).ce = s.ce := rfl
@[simp] theorem State.withRequest_streams (s : State) (ring : HostRing) (r : AdminRecord) (a : Bool) :
    (s.withRequest ring r a).body.streams = s.body.streams := rfl
@[simp] theorem State.finish_bp (id : Nat) (status : Status) (result : Nat) (s : State) :
    (s.finish id status result).bp = s.bp := rfl
@[simp] theorem State.finish_ce (id : Nat) (status : Status) (result : Nat) (s : State) :
    (s.finish id status result).ce = s.ce := rfl
@[simp] theorem State.finish_streams (id : Nat) (status : Status) (result : Nat) (s : State) :
    (s.finish id status result).body.streams = s.body.streams := rfl

/-! ### Events, due frames and requests in the body -/

@[simp] theorem Body.raise_events (source : Option StreamId) (d : Detail) (b : Body) :
    (b.raise source d).events = raiseInto source d b.events := rfl
@[simp] theorem Body.raise_streams (source : Option StreamId) (d : Detail) (b : Body) :
    (b.raise source d).streams = b.streams := rfl
@[simp] theorem Body.raise_stream (source : Option StreamId) (d : Detail) (b : Body) (i : StreamId) :
    (b.raise source d).stream i = b.stream i := rfl
@[simp] theorem Body.raise_blocks (source : Option StreamId) (d : Detail) (b : Body) :
    (b.raise source d).blocks = b.blocks := rfl
@[simp] theorem Body.raise_admin (source : Option StreamId) (d : Detail) (b : Body) :
    (b.raise source d).admin = b.admin := rfl
@[simp] theorem Body.raise_completion (source : Option StreamId) (d : Detail) (b : Body) :
    (b.raise source d).completion = b.completion := rfl
@[simp] theorem Body.raise_event (source : Option StreamId) (d : Detail) (b : Body) :
    (b.raise source d).event = b.event := rfl
@[simp] theorem Body.raise_ringWrites (source : Option StreamId) (d : Detail) (b : Body) :
    (b.raise source d).ringWrites = b.ringWrites := rfl
@[simp] theorem Body.raise_table (source : Option StreamId) (d : Detail) (b : Body) :
    (b.raise source d).table = b.table := rfl
@[simp] theorem Body.raise_nextId (source : Option StreamId) (d : Detail) (b : Body) :
    (b.raise source d).nextId = b.nextId := rfl
@[simp] theorem Body.raise_lt (source : Option StreamId) (d : Detail) (b : Body) : (b.raise source d).lt = b.lt := rfl
@[simp] theorem Body.raise_rx (source : Option StreamId) (d : Detail) (b : Body) : (b.raise source d).rx = b.rx := rfl
@[simp] theorem Body.addDue_stream (f : ControlFrame) (b : Body) (i : StreamId) :
    (b.addDue f).stream i = b.stream i := rfl
@[simp] theorem Body.addDue_streams (f : ControlFrame) (b : Body) : (b.addDue f).streams = b.streams := rfl
@[simp] theorem Body.addDue_fresh (f : ControlFrame) (b : Body) : (b.addDue f).lt.fresh = b.lt.fresh ++ [f] := rfl
@[simp] theorem Body.addDue_due (f : ControlFrame) (b : Body) : (b.addDue f).lt.due = b.lt.due := rfl
@[simp] theorem Body.addDue_lane (f : ControlFrame) (b : Body) : (b.addDue f).lt.lane = b.lt.lane := rfl
@[simp] theorem Body.addDue_notices (f : ControlFrame) (b : Body) : (b.addDue f).lt.notices = b.lt.notices := rfl
@[simp] theorem Body.addDue_events (f : ControlFrame) (b : Body) : (b.addDue f).events = b.events := rfl
@[simp] theorem Body.addDue_table (f : ControlFrame) (b : Body) : (b.addDue f).table = b.table := rfl
@[simp] theorem Body.dropDue_streams (p : ControlFrame → Bool) (b : Body) : (b.dropDue p).streams = b.streams := rfl
@[simp] theorem Body.dropDue_stream (p : ControlFrame → Bool) (b : Body) (i : StreamId) :
    (b.dropDue p).stream i = b.stream i := rfl
@[simp] theorem Body.dropDue_notices (p : ControlFrame → Bool) (b : Body) :
    (b.dropDue p).lt.notices = b.lt.notices := rfl
@[simp] theorem Body.dropDue_events (p : ControlFrame → Bool) (b : Body) : (b.dropDue p).events = b.events := rfl
@[simp] theorem Body.dropDue_table (p : ControlFrame → Bool) (b : Body) : (b.dropDue p).table = b.table := rfl
@[simp] theorem Body.dropDue_fresh (p : ControlFrame → Bool) (b : Body) :
    (b.dropDue p).lt.fresh = b.lt.fresh.filter (!p ·) := rfl
@[simp] theorem Body.dropDue_due (p : ControlFrame → Bool) (b : Body) :
    (b.dropDue p).lt.due = b.lt.due.filter (!p ·) := rfl
@[simp] theorem Body.completeIf_streams (p : Entry → Bool) (status : Status) (n : Nat) (b : Body) :
    (b.completeIf p status n).streams = b.streams := rfl
@[simp] theorem Body.completeIf_stream (p : Entry → Bool) (status : Status) (n : Nat) (b : Body) (i : StreamId) :
    (b.completeIf p status n).stream i = b.stream i := rfl
@[simp] theorem Body.completeIf_lt (p : Entry → Bool) (status : Status) (n : Nat) (b : Body) :
    (b.completeIf p status n).lt = b.lt := rfl
@[simp] theorem Body.completeIf_events (p : Entry → Bool) (status : Status) (n : Nat) (b : Body) :
    (b.completeIf p status n).events = b.events := rfl

/-! ### One stream -/

@[simp] theorem Stream.setBuffer_buffers (st : Stream) (k : Nat) (b : Buffer) :
    (st.setBuffer k b).buffers = st.buffers.set k b := rfl
@[simp] theorem Stream.setBuffer_queue (st : Stream) (k : Nat) (b : Buffer) : (st.setBuffer k b).queue = st.queue := rfl
@[simp] theorem Stream.setBuffer_state (st : Stream) (k : Nat) (b : Buffer) : (st.setBuffer k b).state = st.state := rfl
@[simp] theorem Stream.setBuffer_seq (st : Stream) (k : Nat) (b : Buffer) : (st.setBuffer k b).seq = st.seq := rfl
@[simp] theorem Stream.freeBuffer_buffers (st : Stream) (k : Nat) :
    (st.freeBuffer k).buffers = st.buffers.set k .free := rfl
@[simp] theorem Stream.freeBuffer_queue (st : Stream) (k : Nat) :
    (st.freeBuffer k).queue = st.queue.filter (· != k) := rfl
@[simp] theorem Stream.commitBuffer_buffers (st : Stream) (k : Nat) (d : List Byte) (m : Bool) :
    (st.commitBuffer k d m).buffers = st.buffers.set k (.committed d m) := rfl
@[simp] theorem Stream.commitBuffer_queue (st : Stream) (k : Nat) (d : List Byte) (m : Bool) :
    (st.commitBuffer k d m).queue = st.queue ++ [k] := rfl
@[simp] theorem Stream.discard_state (p : Buffer → Bool) (st : Stream) : (st.discard p).state = st.state := rfl
@[simp] theorem Stream.discard_buffers (p : Buffer → Bool) (st : Stream) :
    (st.discard p).buffers = st.buffers.map fun b => if p b then .free else b := rfl
@[simp] theorem Stream.discard_cause (p : Buffer → Bool) (st : Stream) : (st.discard p).cause = st.cause := rfl
@[simp] theorem Stream.resetSeq_seq (st : Stream) : st.resetSeq.seq = .initial st.dir st.cls := rfl
@[simp] theorem Stream.resetSeq_buffers (st : Stream) : st.resetSeq.buffers = st.buffers := rfl
@[simp] theorem Stream.resetSeq_state (st : Stream) : st.resetSeq.state = st.state := rfl
@[simp] theorem Stream.beginHalt_state (cause : HaltCause) (st : Stream) : (st.beginHalt cause).state = .halting := rfl
@[simp] theorem Stream.beginHalt_cause (cause : HaltCause) (st : Stream) :
    (st.beginHalt cause).cause = some cause := rfl
@[simp] theorem Stream.beginAbort_state (st : Stream) : st.beginAbort.state = .aborting := rfl

end Sys2Proof.Machine
end

