-- ==== Sys2Proof/Laws/Body.lean ====
section
/-! SUPPORT. What the named operations over the body do, said once for each: a change of one stream (`Body.put`,
`Body.modify`, `Body.modifyAll`), halts, and what each leaves alone. -/

namespace Sys2Proof.Machine

open Sys2Proof

/-! ### Body.put -/

/-- The stream that a store event leaves. -/
def Stream.stored (old new : Stream) : Stream := { new with watch := (watchAfter old new).1 }

/-- A store event changes its own stream, the list of events by at most a WATCH event, and the lane by at most a cut. -/
theorem Body.put_eq (i : StreamId) (old new : Stream) (b : Body) :
    b.put i old new = { b with
      streams := b.streams.set i (some (old.stored new))
      lt := { b.lt with lane := laneAfter i new b.lt.lane }
      events := match (watchAfter old new).2 with
        | some c => raiseInto (some i) (.watch c) b.events
        | none => b.events } := by
  simp only [Body.put, Stream.stored, Body.raise]
  split <;> rename_i h <;> simp [h]

@[simp] theorem Body.put_stream_self (i : StreamId) (old new : Stream) (b : Body) :
    (b.put i old new).stream i = some (old.stored new) := by
  simp [Body.put_eq, Body.stream]

theorem Body.put_stream_ne {i j : StreamId} (h : j ≠ i) (old new : Stream) (b : Body) :
    (b.put i old new).stream j = b.stream j := by
  have : ¬ (i.val = j.val) := fun e => h (Fin.ext e.symm)
  simp [Body.put_eq, Body.stream, this]

@[simp] theorem Body.put_blocks (i : StreamId) (old new : Stream) (b : Body) :
    (b.put i old new).blocks = b.blocks := by simp [Body.put_eq]
@[simp] theorem Body.put_admin (i : StreamId) (old new : Stream) (b : Body) :
    (b.put i old new).admin = b.admin := by simp [Body.put_eq]
@[simp] theorem Body.put_completion (i : StreamId) (old new : Stream) (b : Body) :
    (b.put i old new).completion = b.completion := by simp [Body.put_eq]
@[simp] theorem Body.put_event (i : StreamId) (old new : Stream) (b : Body) :
    (b.put i old new).event = b.event := by simp [Body.put_eq]
@[simp] theorem Body.put_ringWrites (i : StreamId) (old new : Stream) (b : Body) :
    (b.put i old new).ringWrites = b.ringWrites := by simp [Body.put_eq]
@[simp] theorem Body.put_table (i : StreamId) (old new : Stream) (b : Body) :
    (b.put i old new).table = b.table := by simp [Body.put_eq]
@[simp] theorem Body.put_nextId (i : StreamId) (old new : Stream) (b : Body) :
    (b.put i old new).nextId = b.nextId := by simp [Body.put_eq]
@[simp] theorem Body.put_rx (i : StreamId) (old new : Stream) (b : Body) :
    (b.put i old new).rx = b.rx := by simp [Body.put_eq]
@[simp] theorem Body.put_lane (i : StreamId) (old new : Stream) (b : Body) :
    (b.put i old new).lt.lane = laneAfter i new b.lt.lane := by simp [Body.put_eq]
@[simp] theorem Body.put_budget (i : StreamId) (old new : Stream) (b : Body) :
    (b.put i old new).lt.budget = b.lt.budget := by simp [Body.put_eq]
@[simp] theorem Body.put_turn (i : StreamId) (old new : Stream) (b : Body) :
    (b.put i old new).lt.turn = b.lt.turn := by simp [Body.put_eq]
@[simp] theorem Body.put_roundRobin (i : StreamId) (old new : Stream) (b : Body) :
    (b.put i old new).lt.roundRobin = b.lt.roundRobin := by simp [Body.put_eq]
@[simp] theorem Body.put_notices (i : StreamId) (old new : Stream) (b : Body) :
    (b.put i old new).lt.notices = b.lt.notices := by simp [Body.put_eq]
@[simp] theorem Body.put_markerDue (i : StreamId) (old new : Stream) (b : Body) :
    (b.put i old new).lt.markerDue = b.lt.markerDue := by simp [Body.put_eq]
@[simp] theorem Body.put_due (i : StreamId) (old new : Stream) (b : Body) :
    (b.put i old new).lt.due = b.lt.due := by simp [Body.put_eq]
@[simp] theorem Body.put_fresh (i : StreamId) (old new : Stream) (b : Body) :
    (b.put i old new).lt.fresh = b.lt.fresh := by simp [Body.put_eq]

/-- The stream a store event leaves is the new one but for the watch's condition. -/
theorem Stream.stored_eq (old new : Stream) : ∃ w, old.stored new = { new with watch := w } := ⟨_, rfl⟩

@[simp] theorem Stream.stored_state (old new : Stream) : (old.stored new).state = new.state := rfl
@[simp] theorem Stream.stored_cause (old new : Stream) : (old.stored new).cause = new.cause := rfl
@[simp] theorem Stream.stored_dir (old new : Stream) : (old.stored new).dir = new.dir := rfl
@[simp] theorem Stream.stored_cls (old new : Stream) : (old.stored new).cls = new.cls := rfl
@[simp] theorem Stream.stored_maxLen (old new : Stream) : (old.stored new).maxLen = new.maxLen := rfl
@[simp] theorem Stream.stored_perCycle (old new : Stream) : (old.stored new).perCycle = new.perCycle := rfl
@[simp] theorem Stream.stored_bound (old new : Stream) : (old.stored new).bound = new.bound := rfl
@[simp] theorem Stream.stored_seq (old new : Stream) : (old.stored new).seq = new.seq := rfl
@[simp] theorem Stream.stored_held (old new : Stream) : (old.stored new).held = new.held := rfl
@[simp] theorem Stream.stored_profileChecked (old new : Stream) :
    (old.stored new).profileChecked = new.profileChecked := rfl
@[simp] theorem Stream.stored_buffers (old new : Stream) : (old.stored new).buffers = new.buffers := rfl
@[simp] theorem Stream.stored_buffer (old new : Stream) (k : Nat) : (old.stored new).buffer k = new.buffer k := rfl
@[simp] theorem Stream.stored_queue (old new : Stream) : (old.stored new).queue = new.queue := rfl
@[simp] theorem Stream.stored_sends (old new : Stream) : (old.stored new).sends = new.sends := rfl
@[simp] theorem Stream.stored_receives (old new : Stream) : (old.stored new).receives = new.receives := rfl
@[simp] theorem Stream.stored_reads (old new : Stream) : (old.stored new).reads = new.reads := rfl
@[simp] theorem Stream.stored_writes (old new : Stream) : (old.stored new).writes = new.writes := rfl
@[simp] theorem Stream.stored_ring (old new : Stream) : (old.stored new).ring = new.ring := rfl
@[simp] theorem Stream.stored_mayHalt (old new : Stream) : (old.stored new).mayHalt = new.mayHalt := rfl
@[simp] theorem Stream.stored_sentIndex (old new : Stream) : (old.stored new).sentIndex = new.sentIndex := rfl
@[simp] theorem Stream.stored_request (old new : Stream) : (old.stored new).request = new.request := rfl
@[simp] theorem Stream.stored_stage (old new : Stream) : (old.stored new).stage = new.stage := rfl

/-- A store event of an open stream opens and closes none. -/
theorem Body.put_stream_none {i : StreamId} {old : Stream} {b : Body} (h : b.stream i = some old) (new : Stream)
    (j : StreamId) : (b.put i old new).stream j = none ↔ b.stream j = none := by
  by_cases e : j = i
  · subst e; simp [h]
  · rw [Body.put_stream_ne e]

/-! ### Body.modify -/

theorem Body.modify_none {i : StreamId} {b : Body} (h : b.stream i = none) (f : Stream → Stream) : b.modify i f = b := by
  simp [Body.modify, h]

theorem Body.modify_some {i : StreamId} {st : Stream} {b : Body} (h : b.stream i = some st) (f : Stream → Stream) :
    b.modify i f = b.put i st (f st) := by
  simp [Body.modify, h]

theorem Body.modify_stream_self (i : StreamId) (f : Stream → Stream) (b : Body) :
    (b.modify i f).stream i = (b.stream i).map fun st => st.stored (f st) := by
  cases h : b.stream i with
  | none => simp [Body.modify_none h, h]
  | some st => simp [Body.modify_some h]

theorem Body.modify_stream_ne {i j : StreamId} (h : j ≠ i) (f : Stream → Stream) (b : Body) :
    (b.modify i f).stream j = b.stream j := by
  cases e : b.stream i with
  | none => rw [Body.modify_none e]
  | some st => rw [Body.modify_some e, Body.put_stream_ne h]

theorem Body.modify_stream_none (i : StreamId) (f : Stream → Stream) (b : Body) (j : StreamId) :
    (b.modify i f).stream j = none ↔ b.stream j = none := by
  cases e : b.stream i with
  | none => rw [Body.modify_none e]
  | some st => rw [Body.modify_some e, Body.put_stream_none e]

@[simp] theorem Body.modify_table (i : StreamId) (f : Stream → Stream) (b : Body) :
    (b.modify i f).table = b.table := by unfold Body.modify; split <;> simp
@[simp] theorem Body.modify_blocks (i : StreamId) (f : Stream → Stream) (b : Body) :
    (b.modify i f).blocks = b.blocks := by unfold Body.modify; split <;> simp
@[simp] theorem Body.modify_admin (i : StreamId) (f : Stream → Stream) (b : Body) :
    (b.modify i f).admin = b.admin := by unfold Body.modify; split <;> simp
@[simp] theorem Body.modify_completion (i : StreamId) (f : Stream → Stream) (b : Body) :
    (b.modify i f).completion = b.completion := by unfold Body.modify; split <;> simp
@[simp] theorem Body.modify_event (i : StreamId) (f : Stream → Stream) (b : Body) :
    (b.modify i f).event = b.event := by unfold Body.modify; split <;> simp
@[simp] theorem Body.modify_ringWrites (i : StreamId) (f : Stream → Stream) (b : Body) :
    (b.modify i f).ringWrites = b.ringWrites := by unfold Body.modify; split <;> simp
@[simp] theorem Body.modify_nextId (i : StreamId) (f : Stream → Stream) (b : Body) :
    (b.modify i f).nextId = b.nextId := by unfold Body.modify; split <;> simp
@[simp] theorem Body.modify_rx (i : StreamId) (f : Stream → Stream) (b : Body) :
    (b.modify i f).rx = b.rx := by unfold Body.modify; split <;> simp
@[simp] theorem Body.modify_notices (i : StreamId) (f : Stream → Stream) (b : Body) :
    (b.modify i f).lt.notices = b.lt.notices := by unfold Body.modify; split <;> simp
@[simp] theorem Body.modify_fresh (i : StreamId) (f : Stream → Stream) (b : Body) :
    (b.modify i f).lt.fresh = b.lt.fresh := by unfold Body.modify; split <;> simp
@[simp] theorem Body.modify_due (i : StreamId) (f : Stream → Stream) (b : Body) :
    (b.modify i f).lt.due = b.lt.due := by unfold Body.modify; split <;> simp
@[simp] theorem Body.modify_budget (i : StreamId) (f : Stream → Stream) (b : Body) :
    (b.modify i f).lt.budget = b.lt.budget := by unfold Body.modify; split <;> simp
@[simp] theorem Body.modify_turn (i : StreamId) (f : Stream → Stream) (b : Body) :
    (b.modify i f).lt.turn = b.lt.turn := by unfold Body.modify; split <;> simp
@[simp] theorem Body.modify_roundRobin (i : StreamId) (f : Stream → Stream) (b : Body) :
    (b.modify i f).lt.roundRobin = b.lt.roundRobin := by unfold Body.modify; split <;> simp

/-! ### Folds over the streams -/

/-- A fold over distinct streams whose step touches one stream, and of the others none, gives each stream of the list what
its own step makes of it. -/
theorem foldl_stream_of_step {step : Body → StreamId → Body} {g : StreamId → Stream → Stream → Prop}
    (self : ∀ b i st, b.stream i = some st → ∃ st', (step b i).stream i = some st' ∧ g i st st')
    (none_iff : ∀ b i j, (step b i).stream j = none ↔ b.stream j = none)
    (other : ∀ b i j, j ≠ i → (step b i).stream j = b.stream j) (l : List StreamId) (hl : l.Nodup) (b : Body) :
    (∀ j, (l.foldl step b).stream j = none ↔ b.stream j = none) ∧
      (∀ j, j ∉ l → (l.foldl step b).stream j = b.stream j) ∧
      (∀ j st, j ∈ l → b.stream j = some st → ∃ st', (l.foldl step b).stream j = some st' ∧ g j st st') := by
  induction l generalizing b with
  | nil => simp
  | cons i l ih =>
    have hi : i ∉ l := (List.nodup_cons.mp hl).1
    obtain ⟨h1, h2, h3⟩ := ih (List.nodup_cons.mp hl).2 (step b i)
    refine ⟨fun j => (h1 j).trans (none_iff b i j), fun j hj => ?_, fun j st hj hs => ?_⟩
    · have : j ≠ i ∧ j ∉ l := by simpa using hj
      exact (h2 j this.2).trans (other b i j this.1)
    · rcases List.mem_cons.mp hj with rfl | hj
      · obtain ⟨st', e, hg⟩ := self b j st hs
        exact ⟨st', (h2 j hi).trans e, hg⟩
      · have hne : j ≠ i := fun e => hi (e ▸ hj)
        exact h3 j st hj ((other b i j hne).trans hs)

/-- A measure of the body that every step of a fold keeps is kept by the fold. -/
theorem foldl_keeps {α β : Type} {step : Body → α → Body} (f : Body → β) (keeps : ∀ b a, f (step b a) = f b)
    (l : List α) (b : Body) : f (l.foldl step b) = f b := by
  induction l generalizing b with
  | nil => rfl
  | cons a l ih => simpa [keeps] using ih (step b a)

/-- A property of the body that every step of a fold keeps is kept by the fold. -/
theorem foldl_invariant {α : Type} {step : Body → α → Body} (P : Body → Prop) (keeps : ∀ b a, P b → P (step b a))
    (l : List α) (b : Body) (h : P b) : P (l.foldl step b) := by
  induction l generalizing b with
  | nil => exact h
  | cons a l ih => exact ih _ (keeps b a h)

theorem nodup_streams : (List.finRange 16).Nodup := List.nodup_finRange 16

/-- A change of every open stream is made in each. -/
theorem Body.modifyAll_stream (f : Stream → Stream) (b : Body) (i : StreamId) :
    (b.modifyAll f).stream i = (b.stream i).map fun st => st.stored (f st) := by
  have h := foldl_stream_of_step (step := fun b i => b.modify i f) (g := fun _ st st' => st' = st.stored (f st))
    (fun b i st e => ⟨_, by rw [Body.modify_stream_self, e]; rfl, rfl⟩) (fun b i j => Body.modify_stream_none i f b j)
    (fun b i j hj => Body.modify_stream_ne hj f b) (List.finRange 16) nodup_streams b
  cases e : b.stream i with
  | none => exact (h.1 i).mpr e
  | some st =>
    obtain ⟨st', e', rfl⟩ := h.2.2 i st (List.mem_finRange i) e
    exact e'

/-! ### Halts -/

/-- A SENT packet that is given up leaves no SENT buffer; the other buffers stay. -/
theorem Stream.abandon_cases (st : Stream) :
    (st.sentIndex = none ∧ st.abandon = st) ∨
      (st.sentIndex ≠ none ∧ st.abandon = { st.discard Buffer.isSent with seq := st.seq.clearFlight }) := by
  unfold Stream.abandon
  cases h : st.sentIndex <;> simp [Stream.discard]

/-- With no SENT packet there is nothing to abandon. -/
theorem Stream.abandon_of_none {st : Stream} (h : st.sentIndex = none) : st.abandon = st := by simp [Stream.abandon, h]

@[simp] theorem Stream.abandon_state (st : Stream) : st.abandon.state = st.state := by
  rcases st.abandon_cases with ⟨-, h⟩ | ⟨-, h⟩ <;> simp [h]
@[simp] theorem Stream.abandon_cause (st : Stream) : st.abandon.cause = st.cause := by
  rcases st.abandon_cases with ⟨-, h⟩ | ⟨-, h⟩ <;> simp [h]
@[simp] theorem Stream.abandon_sends (st : Stream) : st.abandon.sends = st.sends := by
  rcases st.abandon_cases with ⟨-, h⟩ | ⟨-, h⟩ <;> simp [h, Stream.discard]
@[simp] theorem Stream.abandon_receives (st : Stream) : st.abandon.receives = st.receives := by
  rcases st.abandon_cases with ⟨-, h⟩ | ⟨-, h⟩ <;> simp [h, Stream.discard]
@[simp] theorem Stream.abandon_ring (st : Stream) : st.abandon.ring = st.ring := by
  rcases st.abandon_cases with ⟨-, h⟩ | ⟨-, h⟩ <;> simp [h, Stream.discard]
@[simp] theorem Stream.abandon_held (st : Stream) : st.abandon.held = st.held := by
  rcases st.abandon_cases with ⟨-, h⟩ | ⟨-, h⟩ <;> simp [h, Stream.discard]
@[simp] theorem Stream.abandon_dir (st : Stream) : st.abandon.dir = st.dir := by
  rcases st.abandon_cases with ⟨-, h⟩ | ⟨-, h⟩ <;> simp [h, Stream.discard]
@[simp] theorem Stream.abandon_cls (st : Stream) : st.abandon.cls = st.cls := by
  rcases st.abandon_cases with ⟨-, h⟩ | ⟨-, h⟩ <;> simp [h, Stream.discard]

/-- A buffer that is not picked stays through a discard. -/
theorem Stream.discard_buffer (p : Buffer → Bool) (st : Stream) (k : Nat) :
    (st.discard p).buffer k = if p (st.buffer k) then .free else st.buffer k := by
  simp only [Stream.buffer, Stream.discard_buffers, List.getD_eq_getElem?_getD, List.getElem?_map]
  cases st.buffers[k]? <;> simp

theorem Stream.abandon_buffer {st : Stream} {k : Nat} (h : (st.buffer k).isSent = false) :
    st.abandon.buffer k = st.buffer k := by
  rcases st.abandon_cases with ⟨-, e⟩ | ⟨-, e⟩
  · rw [e]
  · have := st.discard_buffer Buffer.isSent k
    rw [h] at this
    rw [e]
    exact this

@[simp] theorem Stream.abandon_sentIndex (st : Stream) : st.abandon.sentIndex = none := by
  rcases st.abandon_cases with ⟨h, e⟩ | ⟨-, e⟩
  · rw [e, h]
  · rw [e]
    simp only [Stream.sentIndex, Stream.discard_buffers, List.findIdx?_eq_none_iff, List.mem_map]
    rintro b ⟨x, -, rfl⟩
    cases hx : x.isSent
    · simpa using hx
    · simp [Buffer.isSent]

/-- A halt that is decided for an open stream that admits one changes that stream and raises STREAM_HALTED. -/
theorem Body.halt_eq {i : StreamId} {st : Stream} {b : Body} (h : b.stream i = some st) (cause : HaltCause) :
    b.halt i cause = if st.mayHalt then (b.put i st (st.beginHalt cause)).raise (some i) (.streamHalted cause) else b := by
  simp [Body.halt, h]

theorem Body.haltOrAbandon_eq {i : StreamId} {st : Stream} {b : Body} (h : b.stream i = some st) (cause : HaltCause) :
    b.haltOrAbandon i cause =
      if st.mayHalt then (b.put i st (st.beginHalt cause)).raise (some i) (.streamHalted cause)
      else if st.state = .halting ∧ st.awaitsAnswer then b.put i st st.abandon else b := by
  by_cases m : st.mayHalt = true <;> simp [Body.haltOrAbandon, h, m, Body.halt_eq h]

theorem Body.haltOrAbandon_none {i : StreamId} {b : Body} (h : b.stream i = none) (cause : HaltCause) :
    b.haltOrAbandon i cause = b := by
  simp [Body.haltOrAbandon, h]

theorem Body.halt_none {i : StreamId} {b : Body} (h : b.stream i = none) (cause : HaltCause) :
    b.halt i cause = b := by
  simp [Body.halt, h]

end Sys2Proof.Machine
end

