-- ==== Sys2Proof/Laws/Link.lean ====
section
/-! SUPPORT. What the loss of the link does to the streams, said once. -/

namespace Sys2Proof.Machine

open Sys2Proof

/-- A stream that the link has left (R15, R113, R147), but for its watch: one that can halt is HALTING with LINK_LOST; no
SENT packet remains. -/
def Stream.lostLink (st : Stream) : Stream :=
  { if st.mayHalt then st.beginHalt .linkLost else st.abandon with profileChecked := false }

@[simp] theorem Stream.lostLink_sentIndex (st : Stream) : st.lostLink.sentIndex = none := by
  unfold Stream.lostLink
  split <;> exact st.abandon_sentIndex

theorem Body.loseLinkOne_none {i : StreamId} {b : Body} (h : b.stream i = none) : b.loseLinkOne i = b := by
  rw [Body.loseLinkOne, Body.halt_none h, Body.modify_none h]

/-- One store event halts and abandons; a second, which changes no measure, clears the flag of a stream that halts. -/
theorem Body.loseLinkOne_eq {i : StreamId} {st : Stream} {b : Body} (h : b.stream i = some st) :
    b.loseLinkOne i =
      if st.mayHalt then
        ((b.put i st (st.beginHalt .linkLost)).raise (some i) (.streamHalted .linkLost)).put i
          (st.stored (st.beginHalt .linkLost)) { st.stored (st.beginHalt .linkLost) with profileChecked := false }
      else b.put i st st.lostLink := by
  rw [Body.loseLinkOne, Body.halt_eq h]
  by_cases m : st.mayHalt = true
  · have gone : (st.stored (st.beginHalt .linkLost)).abandon = st.stored (st.beginHalt .linkLost) :=
      Stream.abandon_of_none st.abandon_sentIndex
    rw [if_pos m, if_pos m, Body.modify_some (st := st.stored (st.beginHalt .linkLost)) (by simp)]
    simp only [gone]
  · rw [if_neg m, if_neg m, Body.modify_some h, Stream.lostLink, if_neg m]

/-- The loss of the link makes of a stream what it is without the link, and leaves the others. -/
theorem Body.loseLinkOne_stream (b : Body) (i j : StreamId) :
    ((b.loseLinkOne i).stream j = none ↔ b.stream j = none) ∧
      (j ≠ i → (b.loseLinkOne i).stream j = b.stream j) ∧
      ∀ st, b.stream i = some st → ∃ w, (b.loseLinkOne i).stream i = some { st.lostLink with watch := w } := by
  cases h : b.stream i with
  | none => simp [Body.loseLinkOne_none h]
  | some st =>
    rw [Body.loseLinkOne_eq h]
    refine ⟨?_, fun hj => ?_, ?_⟩
    · split <;> rw [Body.put_stream_none] <;> simp [h, Body.put_stream_none]
    · split <;> simp [Body.put_stream_ne hj]
    · rintro _ ⟨⟩
      split <;> simp [Stream.lostLink, *] <;> exact ⟨_, rfl⟩

/-- The loss of the link opens and closes no stream, and does to each open one what R15, R113 and R147 state. -/
theorem Body.loseLink_streams (b : Body) :
    (∀ j, b.loseLink.stream j = none ↔ b.stream j = none) ∧
      ∀ j st, b.stream j = some st → ∃ w, b.loseLink.stream j = some { st.lostLink with watch := w } := by
  have h := foldl_stream_of_step (step := fun b i => b.loseLinkOne i)
    (g := fun _ st st' => ∃ w, st' = { st.lostLink with watch := w })
    (fun b i st h => by
      obtain ⟨w, e⟩ := (b.loseLinkOne_stream i i).2.2 st h
      exact ⟨_, e, w, rfl⟩)
    (fun b i j => (b.loseLinkOne_stream i j).1) (fun b i j hj => (b.loseLinkOne_stream i j).2.1 hj)
    (List.finRange 16) nodup_streams b
  refine ⟨h.1, fun j st hs => ?_⟩
  obtain ⟨_, e, w, rfl⟩ := h.2.2 j st (List.mem_finRange j) hs
  exact ⟨w, e⟩

@[simp] theorem Body.loseLinkOne_table (b : Body) (i : StreamId) : (b.loseLinkOne i).table = b.table := by
  cases h : b.stream i with
  | none => rw [Body.loseLinkOne_none h]
  | some st => rw [Body.loseLinkOne_eq h]; split <;> simp

@[simp] theorem Body.loseLinkOne_admin (b : Body) (i : StreamId) : (b.loseLinkOne i).admin = b.admin := by
  cases h : b.stream i with
  | none => rw [Body.loseLinkOne_none h]
  | some st => rw [Body.loseLinkOne_eq h]; split <;> simp

@[simp] theorem Body.loseLink_table (b : Body) : b.loseLink.table = b.table :=
  foldl_keeps (fun b => b.table) (fun b i => b.loseLinkOne_table i) _ _

@[simp] theorem Body.loseLink_admin (b : Body) : b.loseLink.admin = b.admin :=
  foldl_keeps (fun b => b.admin) (fun b i => b.loseLinkOne_admin i) _ _

end Sys2Proof.Machine
end

