-- ==== Sys2Proof/Laws/Requests.lean ====
section
/-! SUPPORT. How a request reaches the part: what the return of an admin fetch does to a part that awaits one request. -/

namespace Sys2Proof.Machine

open Sys2Proof

/-- With no record held for the taken position nothing is handed on. -/
theorem State.handOnRequests_of_next_none {s : State} {ring : HostRing} (ha : s.body.admin = some ring)
    (hn : ring.next? = none) (n : Nat) : s.handOnRequests n = s := by
  cases n with
  | zero => rfl
  | succ n => rw [State.handOnRequests, ha]; simp only [hn]

/-- The first record held for the taken position is taken, and what it sets off runs, before the next is looked at. -/
theorem State.handOnRequests_of_next {s : State} {ring moved : HostRing} {bits : BitVec 256}
    (ha : s.body.admin = some ring) (hn : ring.next? = some (bits, moved)) (n : Nat) :
    s.handOnRequests (n + 1) =
      (State.onBody (Body.runStreams
          ((s.onBody fun b => { b with admin := some moved }).takeRequest ring.taken (AdminRecord.read bits)).env)
        ((s.onBody fun b => { b with admin := some moved }).takeRequest ring.taken
          (AdminRecord.read bits))).handOnRequests n := by
  rw [State.handOnRequests, ha]; simp only [hn]

/-- The one record that returns stands at the taken position. -/
theorem HostRing.next_of_one {ring : HostRing} (hp : 0 < ring.pendingCount)
    (hf : ring.fetches = [{ position := ring.taken, dropped := false }]) (hr : ring.returned = []) (bits : BitVec 256) :
    (ring.fetchReturned 0 bits).next? =
      some (bits, { ring with fetches := [], taken := (ring.taken + 1) % ring.size }) := by
  have e : ring.fetchReturned 0 bits = { ring with fetches := [], returned := [(ring.taken, bits)] } := by
    rw [HostRing.fetchReturned, hf]; simp [hr]
  have hp' : 0 < HostRing.pendingCount { ring with fetches := [], returned := [(ring.taken, bits)] } := hp
  rw [e, HostRing.next?, if_pos hp']
  simp [hr]

end Sys2Proof.Machine
end

