-- ==== Sys2Proof/Laws/Settle.lean ====
section
/-! SUPPORT. How an event settles: what every action of the settling keeps, the whole keeps. -/

namespace Sys2Proof.Machine

open Sys2Proof

/-- The change of the body that one internal action of stream `i` makes. -/
def Body.act (env : Env) (i : StreamId) (st st' : Stream) (e : Effect) (b : Body) : Body :=
  (b.put i st st').applyEffect env i st' e

/-- What every internal action of a stream keeps, the run of a stream keeps. -/
theorem Body.runStream_invariant {P : Body → Prop} {env : Env}
    (act : ∀ b i st st' e, P b → b.stream i = some st → st.internal env i = some (st', e) → P (b.act env i st st' e))
    (n : Nat) (i : StreamId) (b : Body) (h : P b) : P (b.runStream env n i) := by
  induction n generalizing b with
  | zero => exact h
  | succ n ih =>
    rw [Body.runStream]
    cases hs : b.stream i with
    | none => exact h
    | some st =>
      simp only
      cases hi : st.internal env i with
      | none => exact h
      | some x => exact ih _ (act b i st x.1 x.2 h hs hi)

/-- What every internal action of a stream keeps, the run of every stream keeps. -/
theorem Body.runStreams_invariant {P : Body → Prop} {env : Env}
    (act : ∀ b i st st' e, P b → b.stream i = some st → st.internal env i = some (st', e) → P (b.act env i st st' e))
    (b : Body) (h : P b) : P (b.runStreams env) :=
  foldl_invariant P (fun b i hb => Body.runStream_invariant act 256 i b hb) _ b h

/-- What joining and writing completions keep, posting them keeps. -/
theorem Body.postCompletions_invariant {P : Body → Prop} (join : ∀ b src, P b → P (b.joinWaiting src))
    (write : ∀ b n c, P b → P (b.issueCompletions n c)) (b : Body) (h : P b) : P b.postCompletions := by
  refine foldl_invariant P (fun b c hb => write b 24 c hb) _ _ ?_
  refine foldl_invariant P (fun b src hb => join b src hb) _ _ ?_
  exact foldl_invariant P (fun b i hb => join b (.stream i) hb) _ b h

/-- What every part of the settling keeps, the settling of the body keeps. -/
theorem Body.settle_invariant {P : Body → Prop} {env : Env}
    (act : ∀ b i st st' e, P b → b.stream i = some st → st.internal env i = some (st', e) → P (b.act env i st st' e))
    (join : ∀ b src, P b → P (b.joinWaiting src)) (write : ∀ b n c, P b → P (b.issueCompletions n c))
    (merge : ∀ b, P b → P b.mergeDue) (start : ∀ b, P b → P (b.startFrame env))
    (events : ∀ b n, P b → P (b.issueEvents n)) (fetch : ∀ b n, P b → P (b.fetchAdmin env n)) (b : Body) (h : P b) :
    P (b.settle env) :=
  fetch _ _ (events _ _ (start _ (merge _ (Body.postCompletions_invariant join write _
    (Body.runStreams_invariant act b h)))))

/-- Settling answers the part itself, the part with its body settled, or that with the stop ended. -/
theorem State.settle_cases (s : State) :
    (s.fn ≠ .running ∧ s.fn ≠ .stopping ∧ s.settle = s) ∨
      ((s.fn = .running ∨ s.fn = .stopping) ∧ s.settle = s.onBody (Body.settle s.env)) ∨
      (s.fn = .stopping ∧ s.settle = (s.onBody (Body.settle s.env)).stopEnds) := by
  unfold State.settle
  by_cases r : s.fn = .running
  · simp [r]
  · by_cases p : s.fn = .stopping
    · simp only [p, if_neg (show ¬FnState.stopping = .running by decide), if_true]
      split <;> simp
    · simp [r, p]

/-- Outside FAULTED an event is its own effect, settled. -/
theorem State.event_eq {s : State} (h : s.fn ≠ .faulted) (effect : State → State) : s.event effect = (effect s).settle := by
  rw [State.event, if_neg h]

/-- In FAULTED nothing is acted on. -/
theorem State.event_faulted {s : State} (h : s.fn = .faulted) (effect : State → State) : s.event effect = s := by
  rw [State.event, if_pos h]

end Sys2Proof.Machine
end

