-- ==== Sys2Proof/Laws/Stream.lean ====
section
/-! SUPPORT. What no internal action of a stream changes: the parameters it was opened with, how many buffers it has, and
its work ring's place and posted index. -/

namespace Sys2Proof.Machine

open Sys2Proof

/-- The parameters of a stream that stay from its opening to its release (1.1, 9.1), with the posted index, which only a
NOTIFY moves (R154). -/
def Stream.fixed (st : Stream) : Direction × StreamClass × Nat × Nat × Fin 4 × Nat × Addr × Nat × Nat :=
  (st.dir, st.cls, st.maxLen, st.perCycle, st.bound, st.buffers.length, st.ring.base, st.ring.size, st.ring.posted)

theorem Stream.fixed_of_buffers {st st' : Stream}
    (h : (st'.dir, st'.cls, st'.maxLen, st'.perCycle, st'.bound, st'.ring.base, st'.ring.size, st'.ring.posted) =
      (st.dir, st.cls, st.maxLen, st.perCycle, st.bound, st.ring.base, st.ring.size, st.ring.posted))
    (hb : st'.buffers.length = st.buffers.length) : st'.fixed = st.fixed := by
  simp only [Prod.mk.injEq] at h
  simp only [Stream.fixed, hb, h]

@[simp] theorem Stream.fixed_setBuffer (st : Stream) (k : Nat) (b : Buffer) : (st.setBuffer k b).fixed = st.fixed :=
  fixed_of_buffers rfl (by simp [Stream.setBuffer])
@[simp] theorem Stream.fixed_freeBuffer (st : Stream) (k : Nat) : (st.freeBuffer k).fixed = st.fixed :=
  fixed_of_buffers rfl (by simp [Stream.freeBuffer])
@[simp] theorem Stream.fixed_commitBuffer (st : Stream) (k : Nat) (d : List Byte) (m : Bool) :
    (st.commitBuffer k d m).fixed = st.fixed := fixed_of_buffers rfl (by simp [Stream.commitBuffer])
@[simp] theorem Stream.fixed_discard (st : Stream) (p : Buffer → Bool) : (st.discard p).fixed = st.fixed :=
  fixed_of_buffers rfl (by simp [Stream.discard])
@[simp] theorem Stream.fixed_modSend (st : Stream) (n : Nat) (f : SendEntry → SendEntry) :
    (st.modSend n f).fixed = st.fixed := rfl
@[simp] theorem Stream.fixed_modHead (st : Stream) (f : ReceiveEntry → ReceiveEntry) :
    (st.modHead f).fixed = st.fixed := rfl
@[simp] theorem Stream.fixed_hold (st : Stream) (c : Completion) : (st.hold c).fixed = st.fixed := rfl
@[simp] theorem Stream.fixed_bringBack (st : Stream) : st.bringBack.fixed = st.fixed :=
  fixed_of_buffers rfl (by simp [Stream.bringBack])
@[simp] theorem Stream.fixed_setGap (st : Stream) : st.setGap.fixed = st.fixed := by
  unfold Stream.setGap; split <;> rfl
@[simp] theorem Stream.fixed_flushDiscard (st : Stream) (p : Buffer → Bool) : (st.flushDiscard p).fixed = st.fixed := by
  unfold Stream.flushDiscard; split <;> simp
@[simp] theorem Stream.fixed_abandon (st : Stream) : st.abandon.fixed = st.fixed := by
  rcases st.abandon_cases with ⟨-, h⟩ | ⟨-, h⟩
  · rw [h]
  · rw [h]; exact st.fixed_discard _
@[simp] theorem Stream.fixed_beginHalt (st : Stream) (c : HaltCause) : (st.beginHalt c).fixed = st.fixed := by
  unfold Stream.beginHalt
  split
  · exact st.fixed_abandon
  · rfl
@[simp] theorem Stream.fixed_stored (st st' : Stream) : (st.stored st').fixed = st'.fixed := rfl

theorem Stream.fixed_leaveOne {i : StreamId} {st st' : Stream} (h : st.leaveOne i = some st') : st'.fixed = st.fixed := by
  unfold Stream.leaveOne at h
  repeat' split at h
  all_goals cases h
  all_goals rfl

theorem Stream.fixed_placeBytes (r : SendRead) (rest : List SendRead) (data : List Byte) (k : Nat) (cur : List Byte)
    (st : Stream) : (st.placeBytes r rest data k cur).fixed = st.fixed := by
  unfold Stream.placeBytes
  dsimp only
  split
  · rw [fixed_modSend, fixed_commitBuffer]; rfl
  · split
    · rw [fixed_commitBuffer]; rfl
    · rw [fixed_setBuffer]; rfl

theorem Stream.fixed_placeOne {st st' : Stream} (h : st.placeOne = some st') : st'.fixed = st.fixed := by
  unfold Stream.placeOne at h
  repeat' split at h
  all_goals cases h
  exact fixed_placeBytes ..

theorem Stream.fixed_completeNext (i : StreamId) (s : Status) (st : Stream) : (st.completeNext i s).fixed = st.fixed := by
  unfold Stream.completeNext
  repeat' split
  all_goals rfl

theorem Stream.fixed_windCompletions {i : StreamId} {st st' : Stream} (h : st.windCompletions i = some st') :
    st'.fixed = st.fixed := by
  unfold Stream.windCompletions at h
  repeat' split at h
  all_goals cases h
  · unfold Stream.completeHeadOnly; split <;> rfl
  · exact fixed_completeNext ..
  · rfl

theorem Stream.fixed_windHalting {i : StreamId} {st st' : Stream} {e : Effect} (h : st.windHalting i = some (st', e)) :
    st'.fixed = st.fixed := by
  unfold Stream.windHalting at h
  split at h
  · split at h
    · cases hd : st.dir <;> rw [hd] at h <;> cases h
      · exact (fixed_of_buffers rfl rfl).trans (st.fixed_discard Buffer.isOutbound)
      · exact (fixed_of_buffers rfl rfl).trans st.fixed_bringBack
    · cases h
  · split at h <;> cases h; rfl
  · dsimp only at h
    repeat' split at h
    all_goals cases h
    any_goals rfl
    exact (fixed_of_buffers rfl rfl).trans (fixed_flushDiscard { st with failed := none } Buffer.isKept)
  · obtain ⟨x, hx, hy⟩ := Option.map_eq_some_iff.mp h
    cases hy
    exact fixed_windCompletions hx

theorem Stream.fixed_windFlushing {i : StreamId} {st st' : Stream} {e : Effect} (h : st.windFlushing i = some (st', e)) :
    st'.fixed = st.fixed := by
  unfold Stream.windFlushing at h
  split at h
  · cases hd : st.dir <;> rw [hd] at h <;> dsimp only at h <;> split at h <;> cases h
    · exact (fixed_of_buffers rfl rfl).trans (st.fixed_discard Buffer.isOutbound)
    · exact (fixed_of_buffers rfl rfl).trans ((fixed_bringBack _).trans (fixed_flushDiscard st Buffer.isDraining))
  · split at h
    · cases h
    · cases hd : st.dir <;> rw [hd] at h <;> cases h <;> simp [Stream.fixed, hd]
  · cases h; rfl
  · obtain ⟨x, hx, hy⟩ := Option.map_eq_some_iff.mp h
    cases hy
    exact fixed_windCompletions hx

theorem Stream.fixed_windClosing {i : StreamId} {st st' : Stream} {e : Effect} (h : st.windClosing i = some (st', e)) :
    st'.fixed = st.fixed := by
  unfold Stream.windClosing at h
  split at h
  · split at h <;> cases h; rfl
  · split at h
    · split at h <;> cases h
      exact (fixed_of_buffers rfl rfl).trans (st.fixed_discard Buffer.isKept)
    · split at h <;> cases h; rfl
    · repeat' split at h
      all_goals cases h
      all_goals rfl
    · obtain ⟨x, hx, hy⟩ := Option.map_eq_some_iff.mp h
      cases hy
      exact fixed_windCompletions hx

theorem Stream.fixed_windAborting {i : StreamId} {st st' : Stream} {e : Effect} (h : st.windAborting i = some (st', e)) :
    st'.fixed = st.fixed := by
  unfold Stream.windAborting at h
  split at h
  · split at h
    · cases hd : st.dir <;> rw [hd] at h <;> cases h
      · exact (fixed_of_buffers rfl rfl).trans (st.fixed_discard Buffer.isOutbound)
      · rfl
    · cases h
  · split at h <;> cases h; rfl
  · obtain ⟨x, hx, hy⟩ := Option.map_eq_some_iff.mp h
    cases hy
    exact fixed_windCompletions hx

theorem Stream.fixed_wind {i : StreamId} {st st' : Stream} {e : Effect} (h : st.wind i = some (st', e)) :
    st'.fixed = st.fixed := by
  unfold Stream.wind at h
  split at h
  · cases h
  · cases h
  · exact fixed_windHalting h
  · exact fixed_windFlushing h
  · exact fixed_windClosing h
  · exact fixed_windAborting h

theorem HostRing.next_fixed {r r' : HostRing} {bits : BitVec 256} (h : r.next? = some (bits, r')) :
    r'.base = r.base ∧ r'.size = r.size ∧ r'.posted = r.posted := by
  unfold HostRing.next? at h
  repeat' split at h
  all_goals cases h
  exact ⟨rfl, rfl, rfl⟩

theorem Stream.fixed_ring {st : Stream} {r : HostRing} (h : r.base = st.ring.base ∧ r.size = st.ring.size ∧
    r.posted = st.ring.posted) : { st with ring := r }.fixed = st.fixed := by
  simp only [Stream.fixed, h]

theorem Stream.fixed_handOn {env : Env} {st st' : Stream} {e : Effect} (h : st.handOn env = some (st', e)) :
    st'.fixed = st.fixed := by
  unfold Stream.handOn at h
  split at h
  · split at h
    · rename_i bits ring hn
      have hr := fixed_ring (st := st) (HostRing.next_fixed hn)
      dsimp only at h
      repeat' split at h
      all_goals cases h
      all_goals exact hr
    · cases h
  · cases h

theorem Stream.fixed_assembleOne {st st' : Stream} (h : st.assembleOne = some st') : st'.fixed = st.fixed := by
  unfold Stream.assembleOne at h
  split at h
  · split at h
    · cases h
    · split at h
      · split at h
        · unfold Stream.commitEmptyMark at h
          dsimp only at h
          repeat' split at h
          all_goals cases h
          all_goals rw [fixed_modSend, fixed_commitBuffer]
        · cases h
      · split at h <;> cases h
        unfold Stream.issueRead
        dsimp only
        split
        · exact (fixed_of_buffers rfl rfl).trans (st.fixed_setBuffer _ _)
        · rfl
  · cases h

theorem Stream.fixed_takeHeld {st st' : Stream} (h : st.takeHeld = some st') : st'.fixed = st.fixed := by
  unfold Stream.takeHeld at h
  repeat' split at h
  all_goals cases h
  · rw [fixed_modHead, fixed_freeBuffer]
  · rw [fixed_setBuffer]

theorem Stream.fixed_issueWrite {st st' : Stream} (h : st.issueWrite = some st') : st'.fixed = st.fixed := by
  unfold Stream.issueWrite at h
  repeat' split at h
  all_goals cases h
  exact (fixed_of_buffers rfl rfl).trans (fixed_setBuffer st _ _)

theorem Stream.fixed_firstSome {α : Type} {P : α → Prop} (os : List (Option α)) (all : ∀ o ∈ os, ∀ a, o = some a → P a)
    {a : α} (h : firstSome os = some a) : P a := by
  induction os with
  | nil => cases h
  | cons o os ih =>
    cases o with
    | some b => cases h; exact all _ (List.mem_cons_self ..) _ rfl
    | none => exact ih (fun o ho => all o (List.mem_cons_of_mem _ ho)) h

/-- No internal action of a stream changes its parameters. -/
theorem Stream.fixed_internal {env : Env} {i : StreamId} {st st' : Stream} {e : Effect}
    (h : st.internal env i = some (st', e)) : st'.fixed = st.fixed := by
  have plain_fixed : ∀ (o : Option Stream) (x : Stream × Effect), (∀ s, o = some s → s.fixed = st.fixed) →
      plain o = some x → x.1.fixed = st.fixed := by
    intro o x all hx
    obtain ⟨s, hs, rfl⟩ := Option.map_eq_some_iff.mp hx
    exact all s hs
  refine fixed_firstSome (P := fun x : Stream × Effect => x.1.fixed = st.fixed) _ ?_ h
  intro o ho x hx
  simp only [List.mem_cons, List.not_mem_nil, or_false] at ho
  rcases ho with rfl | rfl | rfl | rfl | rfl | rfl | rfl | rfl | rfl | rfl
  · exact plain_fixed _ x (fun s hs => fixed_leaveOne hs) hx
  · exact plain_fixed _ x (fun s hs => fixed_placeOne hs) hx
  · refine plain_fixed _ x (fun s hs => ?_) hx
    unfold Stream.dropReturned at hs
    split at hs <;> cases hs
    rfl
  · exact fixed_wind hx
  · exact fixed_handOn hx
  · exact plain_fixed _ x (fun s hs => fixed_assembleOne hs) hx
  · refine plain_fixed _ x (fun s hs => ?_) hx
    unfold Stream.closeCommit at hs
    repeat' split at hs
    all_goals cases hs
    exact fixed_commitBuffer ..
  · exact plain_fixed _ x (fun s hs => fixed_takeHeld hs) hx
  · exact plain_fixed _ x (fun s hs => fixed_issueWrite hs) hx
  · refine plain_fixed _ x (fun s hs => ?_) hx
    unfold Stream.fetchOne at hs
    split at hs <;> cases hs
    rfl

end Sys2Proof.Machine
end

