-- ==== Sys2Proof/WellFormed.lean ====
section
/-! DEFINITION. Which commands can reach the part: operands within the ranges the spec gives the transfer or frame they
stand for. The fields of records and requests may hold any value, since the part checks them itself (R45, R65, R168). -/

namespace Sys2Proof

open Machine

/-- A NOTICE or NOTICE_ACK names OPENED or CLOSED (11.4, "Control frames"). -/
def noticeKindOk (kind : Byte) : Bool := kind == 1 || kind == 2

/-- At most 63 bytes of a DATA frame follow its last step of 64 (R38). -/
def restOk (rest : List Byte) : Bool := decide (rest.length < 64)

/-- The command can reach the part. -/
def Instr.wellFormed : Instr → Bool
  | .powerOnReset => true
  | .reset => true
  | .start => true
  | .stop => true
  | .notify _ => true
  | .registerWrite offset _ => offset.toNat % 4 == 0
  | .controlBlockReadEnd _ => true
  | .adminFetchReturn slot _ => decide (slot < 8)
  | .workRecordFetchReturn _ slot _ => decide (slot < 8)
  | .sendBufferReadReturn _ slot result =>
    decide (slot < 4) && match result with
      | some data => decide (1 ≤ data.length) && decide (data.length ≤ 256)
      | none => true
  | .receiveBufferWriteEnd _ _ => true
  | .completionWriteEnd _ => true
  | .eventWriteEnd _ => true
  | .interruptMessageWriteEnd _ => true
  | .loadProfileReadEnd _ result =>
    match result with
    | some data => decide (8 ≤ data.length) && decide (data.length ≤ 256)
    | none => true
  | .readPeerProfileWritesEnd _ _ => true
  | .queryStreamWritesEnd _ _ => true
  | .queryLinkWritesEnd _ _ => true
  | .openStream _ _ _ => true
  | .closeStream _ _ => true
  | .abortStream _ _ => true
  | .flushStream _ _ => true
  | .resumeStream _ _ => true
  | .setWatch _ _ _ _ _ _ => true
  | .queryStream _ _ _ => true
  | .linkUp _ _ _ _ => true
  | .linkDown _ => true
  | .loadProfile _ _ _ => true
  | .readPeerProfile _ _ _ => true
  | .queryLink _ _ => true
  | .dataHeaderArrival header => byteAt header 0 == 1
  | .dataArrivalStep _ => true
  | .dataBestEffortEnd rest => restOk rest
  | .dataScheduledEnd rest => restOk rest
  | .accept _ _ => true
  | .defer _ _ => true
  | .gone _ => true
  | .notice _ kind => noticeKindOk kind
  | .noticeAck _ kind => noticeKindOk kind
  | .cycleStart _ => true
  | .cycleEcho _ => true
  | .hello role _ _ _ => role == 1 || role == 2
  | .profileChunk _ bytes => decide (1 ≤ bytes.length) && decide (bytes.length ≤ 64)
  | .profileAck _ => true
  | .farewell => true
  | .invalidFrame => true
  | .transmitFrameEnd => true
  | .leaderPeriodExpiry => true
  | .followerDeadline => true
  | .helloTimerExpiry => true
  | .answerTimerExpiry => true
  | .bringUpTimerExpiry => true
  | .lossOfSignal => true
  | .signalPresent => true

end Sys2Proof
end

