-- ==== Sys2Proof/Tests/Slice0.lean ====
section
/-! SUPPORT. Tests: the checks of `wellFormed`, small cases with results from the manual's tables and worked examples, and
for each statement with hypotheses a concrete state and operands that meet them, clause by clause. -/

namespace Sys2Proof.Tests

open Sys2Proof Sys2Proof.Machine

set_option Elab.async false

/-! ### What `wellFormed` refuses -/

theorem test_wf_register_offset : (Instr.registerWrite 0x06 0).wellFormed = false := by decide
theorem test_wf_admin_slot : (Instr.adminFetchReturn 8 none).wellFormed = false := by decide
theorem test_wf_work_slot : (Instr.workRecordFetchReturn 0 8 none).wellFormed = false := by decide
theorem test_wf_read_slot : (Instr.sendBufferReadReturn 0 4 none).wellFormed = false := by decide
theorem test_wf_read_data : (Instr.sendBufferReadReturn 0 0 (some [])).wellFormed = false := by decide
theorem test_wf_profile_read : (Instr.loadProfileReadEnd 0 (some [0])).wellFormed = false := by decide
theorem test_wf_data_header : (Instr.dataHeaderArrival 2).wellFormed = false := by decide
theorem test_wf_data_rest :
    (Instr.dataBestEffortEnd (List.replicate 64 0)).wellFormed = false ∧
      (Instr.dataScheduledEnd (List.replicate 64 0)).wellFormed = false := by decide
theorem test_wf_notice_kind :
    (Instr.notice 0 3).wellFormed = false ∧ (Instr.noticeAck 0 0).wellFormed = false := by decide
theorem test_wf_hello_role : (Instr.hello 3 0 0 0).wellFormed = false := by decide
theorem test_wf_chunk : (Instr.profileChunk 0 []).wellFormed = false := by decide

/-! ### Small cases from the manual -/

/-- R185 names the CRC-32 of reflected bit order; its published check of "123456789" is CBF43926h. -/
theorem test_check_value : checkValue [0x31, 0x32, 0x33, 0x34, 0x35, 0x36, 0x37, 0x38, 0x39] = 0xCBF43926#32 := by
  decide +kernel

/-- The table of R93, and the grace of 7 µs at 125 µs. -/
theorem test_periods :
    [Period.us125, .us250, .us500, .us1000].map (fun p => (p.capacity, p.reservable)) =
      [(3000, 2400), (6000, 4800), (12000, 9600), (24000, 19200)] ∧ Period.us125.grace = 7 := by decide

/-- 02_the_packet_store.md, "allocation": six requests, and the blocks that stream 12 then owns. -/
theorem test_allocation :
    let empty := State.reset.body.blocks
    let a := allocate 9 600 3 (allocate 5 256 4 (allocate 2 1024 2 empty))
    let b := allocate 12 1024 2 (allocate 11 512 3 (releaseBlocks 2 a))
    freeCount a = 82 ∧ freeCount b = 79 ∧ (List.finRange 96).filter (fun k => ownedBy 12 b[k]) = [3, 14, 15, 16] := by
  decide +kernel

/-- 03_outbound_assembly.md: the second ACCEPT credits 36 bytes to A and 28 bytes and the mark to B. -/
def entryA : SendEntry :=
  { position := 20, tag := 0, addr := 0, length := 100, eom := false, quiet := false, requested := 100, read := 100,
    confirmed := 64, markCarried := false, markConfirmed := false, finishCycle := none }

def entryB : SendEntry :=
  { position := 21, tag := 0, addr := 0, length := 28, eom := true, quiet := false, requested := 28, read := 28,
    confirmed := 0, markCarried := true, markConfirmed := false, finishCycle := none }

theorem test_credit :
    (creditMark (creditBytes 64 [entryA, entryB])).map (fun e => (e.confirmed, e.markConfirmed, e.finished)) =
      [(100, false, true), (28, true, true)] := by decide

/-- 10_administrative_requests_and_events.md: the list after the first three events. -/
theorem test_events_merge :
    raiseInto (some 3) (.watch false) (raiseInto (some 10) (.scheduleMiss true) (raiseInto (some 3) (.watch true) [])) =
      [{ source := some 3, detail := .watch false, count := 2 },
        { source := some 10, detail := .scheduleMiss true, count := 1 }] := by decide

/-- 09_rings_in_host_memory.md: the last position is written, put wraps and the phase flips. -/
def fullRing : PartRing :=
  { base := 0, size := 8, put := 7, freed := 3, phase := true, armed := false, intAddr := 0, intValue := 0 }

theorem test_ring_wraps : fullRing.space = 3 ∧ fullRing.advance.put = 0 ∧ fullRing.advance.phase = false ∧
    (fullRing.consume 3 true).1.armed = false ∧ (fullRing.consume 3 true).2.length = 1 := by decide

/-- R118, 07_link_transfer.md: the scan starts after the round-robin position and ends at it. -/
theorem test_scan_order : (scanOrder 15).head? = some 0 ∧ (scanOrder 3).getLast? = some 3 := by decide

/-- 11.4: an ACCEPT of stream 5 with bit 1 is kind 2, byte 1 45h. -/
theorem test_accept_bytes : (ControlFrame.accept 5 true).body = [0x02, 0x45, 0, 0] := by decide

/-- 11.4: the header of a scheduled packet of stream 9 with its mark, counter 255, slot 2 and 600 bytes. -/
theorem test_data_header :
    DataHeader.read 0x0000025802FF2901#64 =
      { stream := 9, cls := .scheduled, mark := true, bit := false, counter := 255, slot := 2, length := 600 } := by
  decide

/-! ### States for the witnesses -/

/-- The admin ring with one fetch in flight. -/
def adminRing : HostRing :=
  { base := 0x1000, size := 8, posted := 1, taken := 0, fetchPos := 1, fetches := [{ position := 0, dropped := false }],
    returned := [] }

/-- A part-written ring of 8 with entries 0 and 1 written and nothing consumed. -/
def partRing : PartRing :=
  { base := 0x2000, size := 8, put := 2, freed := 0, phase := true, armed := true, intAddr := 0x10, intValue := 1 }

/-- RUNNING with its rings configured, the signal there and the link DOWN. -/
def idle : State :=
  { State.reset with
    fn := .running, lsig := true, bp := { State.reset.bp with signal := true }
    body := { State.reset.body with
      admin := some adminRing, event := some partRing
      completion := Vector.replicate 4 (some { ring := partRing, waiting := [] }) } }

/-- A profile that admits every stream of this direction and class with L up to 1024 and 3 packets per cycle. -/
def profile (dir cls : Byte) : List Byte :=
  [0xC8, 0, 16, 0, 0, 0, 0, 0] ++ (List.range 16).flatMap fun i =>
    [BitVec.ofNat 8 i, dir, cls, if cls = 1 then 3 else 0, 0, 4, 0, 0, 0, 0, 0, 0]

/-- `idle` with the link UP in this role; the peer admits best-effort OUT streams of ours. -/
def up (role : Role) : State :=
  { idle with
    bp := { idle.bp with
      link := .up, peerProfile := some (profile 2 2), localProfile := profile 1 2 }
    ce := { idle.ce with
      role := some role, period := some .us125, sync := .locked
      echoSeen := if role = .leader then some false else none
      periodEnds := if role = .leader then some 125 else none
      expected := if role = .leader then none else some 125 } }

/-- `idle` in CALLING or EXCHANGING with its timers running. -/
def bringing (link : LinkState) (role : Role) : State :=
  { idle with
    bp := { idle.bp with
      link := link, pendingLinkUp := some 0, bringUpEnds := some 100000, helloEnds := some 1000
      peerHello := some { role := 2, period := 125, length := 8, check := checkValue emptyProfile }
      outgoing := some { chunk := 0, sends := 1, timer := some 1000, done := false }
      incoming := some { next := 0, bytes := [], done := false } }
    ce := { idle.ce with role := some role, period := some .us125, firstMarker := role == .follower } }

/-- An open stream of L 64 with 2 buffers. -/
def stream (dir : Direction) (cls : StreamClass) : Stream :=
  Stream.opened true
    { dir := BitVec.ofNat 8 dir.code, cls := BitVec.ofNat 8 cls.code, bufferCount := 2,
      perCycle := if cls = .scheduled then 1 else 0, base := 0, packetLength := 64, size := 8, ring := 0 }

/-- The part with this stream open as stream 0. -/
def withStream0 (st : Stream) (s : State) : State :=
  { s with body := { s.body with streams := s.body.streams.set 0 (some st) } }

/-- A best-effort OUT stream with a SENT packet of bit 0 in this answer condition. -/
def sending (a : AnswerCondition) : Stream :=
  { stream .outbound .bestEffort with
    buffers := [.sent [1] false false a, .free], queue := [0], seq := .bestEffortOut false true 0 }

/-- The parameters of an OPEN_STREAM that passes every check. -/
def params : OpenParams :=
  { dir := 1, cls := 2, bufferCount := 2, perCycle := 0, base := 0, packetLength := 64, size := 8, ring := 3 }

theorem idle_awaits : idle.awaitsRequest adminRing :=
  ⟨rfl, rfl, ⟨by decide, by decide, by decide, by decide⟩, by decide, rfl, rfl⟩

theorem up_awaits (role : Role) : (up role).awaitsRequest adminRing :=
  ⟨rfl, rfl, idle_awaits.2.2.1, idle_awaits.2.2.2.1, rfl, rfl⟩

theorem opened_awaits (role : Role) (st : Stream) : (withStream0 st (up role)).awaitsRequest adminRing :=
  ⟨rfl, rfl, idle_awaits.2.2.1, idle_awaits.2.2.2.1, rfl, rfl⟩

/-! ### Single commands from the worked examples -/

/-- The part after a command. -/
def after (c : Instr) (s : State) : State :=
  match exec c s with
  | .next t => t
  | .fault _ => s
  | .refused _ => s

/-- 06_the_cycle_engine.md, "a follower keeps step": marker 44 comes late, at 511. -/
theorem test_late_marker :
    let s := up .follower
    let t := after (.cycleStart 44)
      { s with now := 511, ce := { s.ce with cycle := 44, sync := .coasting, coasting := 1, expected := some 625 } }
    (t.ce.sync, t.ce.coasting, t.ce.cycle, t.ce.expected) = (.locked, 0, 44, some 636) ∧
      t.body.lt.lane = some (.control (.cycleEcho 44)) := by decide +kernel

/-- The same example at 257: the deadline of 250 + 7 passes. -/
theorem test_deadline :
    let s := up .follower
    let t := after .followerDeadline { s with now := 257, ce := { s.ce with cycle := 41, expected := some 250 } }
    (t.now, t.ce.sync, t.ce.coasting, t.ce.cycle, t.ce.expected) = (257, .coasting, 1, 42, some 375) := by
  decide +kernel

/-- R102: a marker taken before the deadline's command moves the deadline on, and no cycle is synthesized. -/
theorem test_deadline_void :
    let s := { up .follower with now := 132 }
    let t := after .followerDeadline (after (.cycleStart 1) s)
    (t.now, t.ce.sync, t.ce.cycle, t.ce.expected) = (132, .locked, 1, some 257) := by decide +kernel

/-- R139: so does an acknowledgement taken before the answer timer's command, where a chunk remains. -/
theorem test_answer_void :
    let s := bringing .exchanging .leader
    let s := { s with now := 1000, bp := { s.bp with localProfile := profile 1 2 } }
    (after .answerTimerExpiry (after (.profileAck 0) s)).bp.outgoing =
      some { chunk := 1, sends := 1, timer := some 2000, done := false } := by decide +kernel

/-- R11, R37: a packet answered DEFER in HALTING stays in its buffer while a read is in flight. -/
theorem test_defer_in_halting :
    let st := { sending .awaiting1 with
      state := .halting, cause := some .memoryError, stage := .waiting
      reads := [{ position := 0, addr := 0, length := 1, data := none }] }
    ((after (.defer 0 false) (withStream0 st (up .leader))).body.stream 0).map (fun st => (st.buffer 0, st.awaitsAnswer)) =
      some (.sent [1] false false .deferred, false) := by decide +kernel

/-- A packet answered DEFER in HALTING, with a read still in flight. -/
def givenUp : Stream :=
  { sending .deferred with
    state := .halting, cause := some .memoryError, stage := .waiting, seq := .bestEffortOut false false 0
    reads := [{ position := 0, addr := 0, length := 1, data := none }] }

/-- R11, R37, R128: a NOTICE(CLOSED) finds no packet awaited, and it goes with the rest. -/
theorem test_notice_after_defer :
    (after (.notice 0 2) (withStream0 givenUp (up .leader))).body.stream 0 = some givenUp := by decide +kernel

/-- R113, R147: the link leaves UP, and no answer condition remains. -/
theorem test_link_loss_after_defer :
    (((withStream0 givenUp (up .leader)).leaveUp .noSignal).body.stream 0).map (fun x => (x.buffer 0, x.discarded)) =
      some (.free, 1) := by decide +kernel

/-- R19, R23: a flush whose head waits to complete FLUSHED, behind a completion not yet written, when the link is lost;
the flush still has its head to complete. -/
theorem test_flush_keeps_its_head :
    let st := { stream .inbound .bestEffort with
      state := .flushing, stage := .completeHead .flushed, request := some .flush
      held := some { completion := sendCompletion 0 entryA .ok, stage := .waiting }
      receives := [{ position := 0, tag := 0, addr := 0, capacity := 8, quiet := false, issued := 0, written := 0,
                     markIssued := false, markDelivered := false, firstCycle := none, gap := false }] }
    (((withStream0 st (up .leader)).leaveUp .noSignal).settle.body.stream 0).map (fun x => (x.stage, x.cause)) =
      some (.completeHead .flushed, some .linkLost) := by decide +kernel

/-- R3, R23: a close that a halt interrupts; the record that returns last in HALTING is discarded, and the close ends. -/
theorem test_close_in_halting :
    let st := { stream .outbound .bestEffort with
      state := .halting, cause := some .linkLost, stage := .waiting, request := some .close
      ring := { base := 0, size := 8, posted := 1, taken := 0, fetchPos := 1, fetches := [{ position := 0, dropped := false }],
                returned := [] } }
    (after (.workRecordFetchReturn 0 0 (some 0)) (withStream0 st idle)).body.stream 0 = none := by decide +kernel

/-- A scheduled OUT stream of these parameters. -/
def reserving (maxLen perCycle : Nat) : Stream :=
  { stream .outbound .scheduled with maxLen := maxLen, perCycle := perCycle }

/-- 06_the_cycle_engine.md, "a change of period": streams 1, 3, 6 and 9 against 2400. -/
theorem test_examination :
    let b := { State.reset.body with streams := (((State.reset.body.streams.set 1 (some (reserving 512 2))).set 3
      (some (reserving 1024 1))).set 6 (some (reserving 512 1))).set 9 (some (reserving 128 1)) }
    let t := b.examine (profile 2 1) 2400
    b.reservedSum = 2748 ∧ t.reservedSum = 2224 ∧
      (t.stream 6).bind Stream.cause = some .profileMismatch ∧ ((t.stream 9).map Stream.state) = some .active := by
  decide +kernel

/-- 09_rings_in_host_memory.md: with put and freed at 2, NOTIFY(18, 5) is out of span. -/
theorem test_bad_notify :
    let ring := { partRing with freed := 2 }
    let s := { idle with body := { idle.body with
      event := none, completion := Vector.replicate 4 (some { ring := ring, waiting := [] }) } }
    (after (.notify 0x12000005) s).body.events = [{ source := none, detail := .badNotify 18 5, count := 1 }] := by
  decide +kernel

/-! ### Witnesses: steps, resets, START and STOP -/

theorem witness_EmptyQueueLetsTimePass :
    (idle.pending = [] ∧ idle.fn ≠ .faulted) ∧
      (idle.faulted .postWrite).pending = [] ∧ (idle.faulted .postWrite).fn = .faulted := by decide

theorem witness_StartReadsTheControlBlock_start :
    (State.reset.fn = .off ∧ (0#32 ++ 64#32).toNat % 64 = 0) ∧ (0#32 ++ 63#32).toNat % 64 ≠ 0 ∧
      { State.reset with cbLo := 63 }.fn = .off ∧ { idle with fn := .starting }.fn = .starting ∧
      idle.fn = .running := by decide

/-- A request in the table with nothing of it under way. -/
def entry (code : Byte) : Entry :=
  { id := 0, position := 0, code := code, field := 0, stream := some 0, tag := 0, claim := decide (code.toNat ≤ 5),
    work := .none, held := none }

/-- A completion that waits for its write. -/
def held : Held :=
  { completion := sendCompletion 0 entryA .ok, stage := .waiting }

/-- The part with these requests in its table. -/
def withTable (es : List Entry) (s : State) : State := { s with body := { s.body with table := es } }

theorem witness_StopIsHeldOrApplied :
    State.reset.fn = .off ∧ { idle with fn := .stopping }.fn = .stopping ∧ { idle with fn := .starting }.fn = .starting ∧
      (idle.fn = .running ∧ idle.bp.link = .down) ∧ ((up .leader).fn = .running ∧ (up .leader).bp.link = .up) ∧
      (withStream0 (sending .due) (up .leader)).body.stream 0 = some (sending .due) ∧
      (entry 6 ∈ (withTable [entry 6] idle).body.table ∧ (entry 6).held = none ∧ (entry 6).work = Work.none) ∧
      { entry 6 with held := some held }.held ≠ none := by decide +kernel

/-- A control block with one completion ring of size 8, or four of size 4096. -/
def controlBlock (size rings : Nat) : BitVec 1024 :=
  BitVec.ofNat 1024 ((List.range 6).foldl (fun n k => n + size * 2 ^ (8 * (108 + 2 * k))) (rings * 2 ^ 960))

theorem witness_StartReadsTheControlBlock_read :
    (ControlBlock.read (controlBlock 8 1)).valid = true ∧ (ControlBlock.read (controlBlock 4096 4)).valid = true ∧
      (byteAt (controlBlock 8 1) 120).toNat = 1 ∧ (∃ n, 3 ≤ n ∧ n ≤ 12 ∧ fieldAt (controlBlock 8 1) 108 2 = 2 ^ n) ∧
      (addrAt (controlBlock 8 1) 16).toNat % 64 = 0 ∧ (ControlBlock.read (controlBlock 8 5)).valid = false ∧ (ControlBlock.read (controlBlock 8 0)).valid = false ∧
      { idle with fn := .starting, heldStop := true }.fn = .starting ∧ State.reset.fn = .off ∧ idle.fn = .running :=
  ⟨by decide +kernel, by decide +kernel, by decide +kernel, ⟨3, by decide +kernel⟩, by decide +kernel⟩

theorem witness_RegisterWindow :
    (0#32).toNat % 4 = 0 ∧ (5#32).toNat % 4 = 1 ∧ (2#32).toNat % 4 = 2 ∧ (3#32).toNat % 4 = 3 ∧
      0x14#32 ∉ [0x04#32, 0x08#32, 0x0C#32, 0x10#32] ∧ 0x10#32 ∉ [0x00#32, 0x04#32, 0x08#32, 0x0C#32] := by decide

/-! ### Witnesses: NOTIFY -/

theorem witness_NotifyPostsRecords :
    (idle.fn = .running ∧ (notifyIndex 7).toNat < adminRing.size ∧ notifyRing 7 = 0 ∧ idle.body.admin = some adminRing) ∧
      (notifyIndex 0x01000007).toNat < (sending .due).ring.size ∧ notifyRing 0x01000007 = (0 : StreamId).val + 1 ∧
      (withStream0 (sending .due) idle).body.stream 0 = some (sending .due) := by decide +kernel

theorem witness_NotifyFreesEntriesOrIsBad_frees :
    idle.fn = .running ∧ ((notifyIndex 0x11000002).toNat < partRing.size ∧
      ringSub partRing.size (notifyIndex 0x11000002).toNat partRing.freed ≤
        ringSub partRing.size partRing.put partRing.freed) ∧
      notifyRing 0x11000002 = 17 + (0 : Fin 4).val ∧ notifyRing 0x94000000 = 17 + (3 : Fin 4).val ∧
      idle.body.completion[(3 : Fin 4)] = some { ring := partRing, waiting := [] } ∧
      notifyRing 0x95000000 = 21 ∧ notifyArm 0x95000000 = true ∧ (notifyIndex 0x95000000).toNat = 0 ∧
      idle.body.event = some partRing := by decide +kernel

theorem witness_NotifyFreesEntriesOrIsBad_bad :
    (idle.fn = .running ∧ 21 < notifyRing 0x16000000) ∧
      (notifyRing 8 = 0 ∧ adminRing.size ≤ (notifyIndex 8).toNat) ∧
      (notifyRing 0x10000000 = (15 : StreamId).val + 1 ∧ idle.body.stream 15 = none) ∧
      ((withStream0 (sending .due) idle).body.stream 0 = some (sending .due) ∧
        (sending .due).ring.size ≤ (notifyIndex 0x01000008).toNat) ∧
      (State.reset.body.completion[(3 : Fin 4)] = none ∧ notifyRing 0x14000000 = 17 + (3 : Fin 4).val) ∧
      ringSub 8 2 0 < ringSub 8 (notifyIndex 0x15000003).toNat 0 ∧ notifyRing 0x15000003 = 21 ∧
      ({ idle with fn := .stopping }.fn = .stopping ∧ { idle with fn := .stopping }.body.event = some partRing ∧
        { idle with fn := .stopping }.body.completion[(0 : Fin 4)] = some { ring := partRing, waiting := [] } ∧
        notifyRing 0x11000008 = 17 + (0 : Fin 4).val ∧ partRing.size ≤ (notifyIndex 0x11000008).toNat) ∧
      notifyRing 0x10000000 ≤ 16 ∧ State.reset.fn = .off := by
  decide +kernel

/-! ### Witnesses: faults and settling -/

theorem witness_FaultedPartActsOnNothing :
    (idle.faulted .adminFetch).fn = .faulted ∧ 0x10#32 ∉ [0x04#32, 0x08#32, 0x0C#32] ∧ (1#32).toNat % 4 ≠ 3 := by decide

/-- A write of the Ring Interface in flight. -/
def write (kind : RingWriteKind) : RingWrite := { kind := kind, addr := 0, data := [] }

theorem witness_FailedRingAccessFaultsThePart :
    idle.fn = .running ∧ { idle with fn := .stopping }.fn = .stopping ∧
      [write .event, write (.completion (.stream 0))].find? RingWrite.isCompletion =
        some (write (.completion (.stream 0))) ∧
      [write .interrupt, write .event].find? (fun x => x.kind == .event) = some (write .event) ∧
      [write .interrupt].find? (fun x => x.kind == .interrupt) = some (write .interrupt) ∧
      idle.body.admin = some adminRing ∧ 0 < adminRing.fetches.length := by decide +kernel

/-- A closing OUT stream with nothing left. -/
def closingOut : Stream := { stream .outbound .bestEffort with state := .closing, stage := .waiting }

theorem witness_SettlingLeavesAlone :
    ((withStream0 closingOut idle).body.stream 0 = some closingOut ∧
      closingOut.internal idle.env 0 = some (closingOut, .released) ∧
      ((withStream0 closingOut idle).settle.body.stream 0 = none) ∧
      (stream .outbound .bestEffort).internal idle.env 0 = none) ∧
      idle.fn = .running ∧ { idle with fn := .stopping }.fn = .stopping ∧ State.reset.fn ≠ .running ∧
      State.reset.fn ≠ .stopping ∧
      ((withStream0 (sending .due) (up .leader)).settle.body.stream 0).isSome = true ∧
      ((∀ i, (idle.body.settle idle.env).stream i = none) ∧ (idle.body.settle idle.env).table = [] ∧
        (idle.body.settle idle.env).ringWrites = [] ∧
        (∀ f ∈ (idle.body.settle idle.env).lt.due ++ (idle.body.settle idle.env).lt.fresh, f.isFarewell = false) ∧
        (idle.body.settle idle.env).lt.lane ≠ some (.control .farewell)) ∧
      ((∀ r ∈ ({ idle.body with admin := none }.settle idle.env).admin, r.fetches = []) ∧
        ¬∀ r ∈ (idle.body.settle idle.env).admin, r.fetches = []) := by decide +kernel

/-! ### Witnesses: admin requests -/

/-- The admin ring with its first fetch cut off. -/
def cutRing : HostRing := { adminRing with fetches := [{ position := 0, dropped := true }, { position := 0, dropped := false }] }

theorem witness_RequestsAreTheirRecords :
    idle.body.admin = some adminRing ∧ adminRing.fetches.findIdx? (fun f => !f.dropped) = some 0 ∧
      cutRing.fetches.findIdx? (fun f => !f.dropped) = some 1 ∧ cutRing.fetches[0]? = some { position := 0, dropped := true } ∧
      (∀ p ∈ cutRing.returned, p.1 ≠ cutRing.taken) ∧
      { adminRing with taken := 7 }.fetches[0]? = some { position := 0, dropped := false } ∧
      (0 : Nat) ≠ { adminRing with taken := 7 }.taken := by decide +kernel

theorem witness_AdmissionRefusesInOrder :
    (withTable [entry 2] idle).awaitsRequest adminRing ∧ (AdminRecord.read 0).code.toNat < 1 ∧
      12 < (AdminRecord.read 13).code.toNat ∧ (AdminRecord.read (2#256 + 2#256 ^ 255)).reservedZero = false ∧
      ((AdminRecord.read 0x1007).wellFormed = true ∧ (AdminRecord.read 0x1007).code.toNat ≤ 7 ∧
        15 < (AdminRecord.read 0x1007).field.toNat) ∧
      ((AdminRecord.read 5).wellFormed = true ∧ (0 : StreamId).val = (AdminRecord.read 5).field.toNat ∧
        (entry 2).claim = true ∧ (entry 2).stream = some 0 ∧ ¬((AdminRecord.read 5).code = 3)) ∧
      ((AdminRecord.read 3).wellFormed = true ∧ (entry 1).claim = true ∧ ¬((entry 1).code = 2 ∨ (entry 1).code = 4)) ∧
      ((AdminRecord.read 8).wellFormed = true ∧ (entry 9).code = 9) ∧
      ((AdminRecord.read 9).wellFormed = true ∧ ¬((AdminRecord.read 9).code = 9 ∧ (entry 9).code = 8)) :=
  ⟨⟨rfl, rfl, idle_awaits.2.2.1, idle_awaits.2.2.2.1, rfl, rfl⟩, by decide +kernel⟩

theorem up_unclaimed (role : Role) (i : StreamId) : (up role).unclaimed i := fun _ h => absurd h List.not_mem_nil

theorem opened_unclaimed (role : Role) (st : Stream) (i : StreamId) : (withStream0 st (up role)).unclaimed i :=
  fun _ h => absurd h List.not_mem_nil

/-- Parameters of a scheduled stream that would reserve 3 × 1036 bytes of the 2400 of a period of 125 µs. -/
def wide : OpenParams := { params with cls := 1, packetLength := 1024, perCycle := 3 }

/-- The part UP with profiles that admit scheduled OUT streams. -/
def scheduledUp : State :=
  { up .leader with bp := { (up .leader).bp with localProfile := profile 1 1, peerProfile := some (profile 2 1) } }

theorem witness_OpenStreamChecksInOrder :
    (up .leader).awaitsRequest adminRing ∧ (0 : StreamId).val = (0 : Byte).toNat ∧ (up .leader).unclaimed 0 ∧
      (withStream0 (sending .due) (up .leader)).body.stream 0 ≠ none ∧ (up .leader).body.stream 0 = none ∧
      (openInRange (up .leader).body.ringCount params = true ∧
        localAllows (up .leader).bp.localProfile 0 (Stream.opened true params) = true ∧
        peerAllows (up .leader).bp.peerProfile 0 (Stream.opened true params) = true ∧
        blocksNeeded 64 2 ≤ freeCount (up .leader).body.blocks) ∧
      openInRange 4 { params with dir := 3 } = false ∧ openInRange 4 { params with size := 4 } = false ∧
      openInRange 3 params = false ∧
      localAllows emptyProfile 0 (Stream.opened true params) = false ∧
      peerAllows (some emptyProfile) 0 (Stream.opened true params) = false ∧
      (openInRange 4 wide = true ∧ localAllows scheduledUp.bp.localProfile 0 (Stream.opened true wide) = true ∧
        peerAllows scheduledUp.bp.peerProfile 0 (Stream.opened true wide) = true ∧
        ¬(scheduledUp.body.reservedSum + 3 * (1024 + 12) ≤ scheduledUp.ce.inForce.reservable)) ∧
      (((profile 2 2).getD 2 0).toNat = 16 ∧ ((profile 2 2).getD 8 0).toNat = 0 ∧ ((profile 2 2).getD 9 0).toNat = 3 - 1 ∧
        ((profile 2 2).getD 10 0).toNat = StreamClass.bestEffort.code ∧
        64 ≤ ((profile 2 2).getD 12 0).toNat + 256 * ((profile 2 2).getD 13 0).toNat) ∧
      ¬(2 ≤ freeCount (Vector.replicate 96 (some { stream := 1, buffer := 0, second := false }))) :=
  ⟨up_awaits _, rfl, up_unclaimed _ _, by decide +kernel⟩

/-- The range that the statement writes out is the one the witness evaluates. -/
theorem params_in_range :
    (params.dir = 1 ∨ params.dir = 2) ∧ (params.packetLength.toNat % 4 = 0 ∧ 4 ≤ params.packetLength.toNat ∧
      params.packetLength.toNat ≤ 1024) ∧ (params.bufferCount = 2 ∨ params.bufferCount = 3 ∨ params.bufferCount = 4) ∧
      (params.cls = 2 ∧ params.perCycle = 0) ∧ params.base.toNat % 64 = 0 ∧
      (∃ n, 3 ≤ n ∧ n ≤ 12 ∧ params.size.toNat = 2 ^ n) ∧
      params.ring.toNat < idle.body.completion.toList.countP Option.isSome :=
  ⟨by decide, by decide, by decide, by decide, by decide, ⟨3, by decide⟩, by decide +kernel⟩

theorem witness_OpeningAndReleaseOfAStream :
    Direction.ofCode params.dir = some .outbound ∧ StreamClass.ofCode params.cls = some .bestEffort ∧
      (∀ o ∈ State.reset.body.blocks.toList, ownedBy 0 o = false) ∧ 2 ≤ freeCount State.reset.body.blocks ∧
      (Stream.opened true { params with packetLength := 512 }).maxLen ≤ 512 ∧
      ¬((Stream.opened true { params with packetLength := 516 }).maxLen ≤ 512) ∧
      (State.reset.body.blocks[(95 : Fin 96)] = none ∧
        (allocate 0 64 2 State.reset.body.blocks)[(1 : Fin 96)] = some { stream := 0, buffer := 1, second := false }) := by
  decide +kernel

/-- A best-effort IN stream with a HELD packet. -/
def holding : Stream :=
  { stream .inbound .bestEffort with buffers := [.held [1, 2] true (.bit false) 3 false, .free], queue := [0] }

theorem witness_CloseAndFlushBegin :
    (withStream0 (sending .due) (up .leader)).awaitsRequest adminRing ∧
      (withStream0 (sending .due) (up .leader)).unclaimed 0 ∧
      ((withStream0 (sending .due) (up .leader)).body.stream 0 = some (sending .due) ∧
        (sending .due).state = .active ∧ (sending .due).dir = .outbound) ∧
      (holding.dir = .inbound ∧ holding.buffers.any Buffer.isHeld = true) ∧
      { holding with state := .halted }.state = .halted ∧
      { holding with state := .aborting }.state ≠ .active ∧ (up .leader).body.stream 0 = none :=
  ⟨opened_awaits _ _, opened_unclaimed _ _ _, by decide +kernel⟩

theorem witness_AbortStreamOvertakes :
    (withStream0 (sending .due) (up .leader)).awaitsRequest adminRing ∧ claimFree 0 3 [entry 2] = true ∧
      claimFree 0 3 [] = true ∧ (sending .due).sentIndex ≠ none ∧
      (sending .due).seq = .bestEffortOut false true 0 ∧ holding.sentIndex = none :=
  ⟨opened_awaits _ _, by decide +kernel⟩

theorem witness_ResumeStreamChecksInOrder :
    (withStream0 { sending .due with state := .halted } (up .leader)).awaitsRequest adminRing ∧
      { sending .due with state := .halted }.state = .halted ∧ (up .leader).bp.link = .up ∧ idle.bp.link ≠ .up ∧
      peerAllows (up .leader).bp.peerProfile 0 (sending .due) = true ∧
      peerAllows (some emptyProfile) 0 (sending .due) = false ∧
      (peerAllows scheduledUp.bp.peerProfile 0 (Stream.opened true wide) = true ∧
        ¬(scheduledUp.body.reservedSum + 3 * (1024 + 12) ≤ scheduledUp.ce.inForce.reservable)) ∧
      (sending .due).state ≠ .halted :=
  ⟨opened_awaits _ _, by decide +kernel⟩

theorem witness_SetWatchTakesTheSettings :
    (withStream0 (sending .due) (up .leader)).awaitsRequest adminRing ∧
      (49152#32).toNat ≤ 49152 ∧ 49152 < (49153#32).toNat ∧ ((2 : Byte) ≠ 0 ∧ (2 : Byte) ≠ 1) ∧
      holding.dir = .inbound ∧ (sending .due).dir = .outbound ∧
      ((1#32).toNat ≤ (sending .due).measure .wholeStore) ∧ ¬((2#32).toNat ≤ (sending .due).measure .wholeStore) :=
  ⟨opened_awaits _ _, by decide +kernel⟩

theorem witness_QueriesTakeSnapshots :
    (up .leader).awaitsRequest adminRing ∧ (18446744073709551552#64).toNat + 64 ≤ 2 ^ 64 ∧
      2 ^ 64 < (18446744073709551553#64).toNat + 64 ∧ (18446744073709551488#64).toNat + 128 ≤ 2 ^ 64 ∧
      2 ^ 64 < (18446744073709551489#64).toNat + 128 :=
  ⟨up_awaits _, by decide⟩

theorem witness_SnapshotsLayOutTheFields :
    (up .leader).body.stream 0 = none ∧ (withStream0 (sending .due) (up .leader)).body.stream 0 = some (sending .due) ∧
      ((sending .due).dir = .outbound ∧ (sending .due).sends = [] ∧ (sending .due).watch = none ∧
        (sending .due).sentIndex = some 0 ∧ (sending .due).seq = .bestEffortOut false true 0 ∧
        (sending .due).buffer 0 = .sent [1] false false .due ∧ (sending .due).buffers.length ≤ 4) ∧
      ((List.range 4).map fun k => (((withStream0 (sending .due) (up .leader)).body.streamSnapshot 0).drop (44 + k)).take 1) =
        [[0x42], [0], [0], [0]] ∧
      (holding.dir = .inbound ∧ holding.receives = [] ∧ holding.drainingIndex = none) ∧
      ((up .leader).bp.bringUpEnds = none ∧ (bringing .exchanging .leader).bp.bringUpEnds = some 100000 ∧
        (bringing .exchanging .leader).bp.outgoing = some { chunk := 0, sends := 1, timer := some 1000, done := false } ∧
        (bringing .exchanging .leader).bp.incoming = some { next := 0, bytes := [], done := false }) ∧
      (idle.body.admin = some adminRing ∧ idle.body.event = some partRing ∧ State.reset.body.admin = none ∧
        State.reset.body.event = none ∧ State.reset.body.completion[(3 : Fin 4)] = none ∧
        idle.body.completion[(3 : Fin 4)] = some { ring := partRing, waiting := [] }) := by decide +kernel

/-! ### Witnesses: link and profile requests -/

theorem witness_LinkUpCallsThePeer :
    idle.awaitsRequest adminRing ∧ idle.noLinkRequest ∧ (up .leader).noLinkRequest ∧
      (Role.leader.code = (1 : Byte).toNat ∧ Period.us125.us = (125#32).toNat ∧ 10 ≤ (10#32).toNat ∧
        (60000#32).toNat ≤ 60000) ∧
      ((9#32).toNat < 10 ∧ 60000 < (60001#32).toNat ∧ (0 : Byte) ≠ 1 ∧ (126#32).toNat ∉ [125, 250, 500, 1000]) ∧
      idle.bp.link = .down ∧ (up .leader).bp.link ≠ .down ∧
      (∀ f ∈ idle.body.lt.due ++ idle.body.lt.fresh, f.isHello = false) :=
  ⟨idle_awaits, fun _ h => absurd h List.not_mem_nil, fun _ h => absurd h List.not_mem_nil, by decide +kernel⟩

theorem witness_LinkDownTakesTheLinkDown :
    (up .leader).awaitsRequest adminRing ∧ (∀ e ∈ [entry 8], isLinkCode e.code = true → e.code = 8) ∧
      idle.bp.link = .down ∧ (up .leader).bp.link = .up ∧
      ((bringing .calling .leader).bp.link = .calling ∧ (bringing .calling .leader).bp.pendingLinkUp = some 0) ∧
      (bringing .exchanging .leader).bp.link = .exchanging :=
  ⟨up_awaits _, by decide⟩

theorem witness_ProfileRequestsBeginAndLoadDecides_begin :
    (up .leader).awaitsRequest adminRing ∧ (7#32).toNat < 8 ∧ 8 ≤ (8#32).toNat ∧ (256#32).toNat ≤ 256 ∧
      256 < (257#32).toNat ∧ (18446744073709551360#64).toNat + 256 ≤ 2 ^ 64 ∧
      2 ^ 64 < (18446744073709551361#64).toNat + 256 ∧ idle.bp.link ≠ .up ∧
      ((up .leader).bp.link = .up ∧ (up .leader).bp.peerProfile = some (profile 2 2)) :=
  ⟨up_awaits _, by decide +kernel⟩

/-- A LOAD_PROFILE whose read is under way. -/
def loading (n : Nat) : Entry := { entry 10 with work := .profileRead 0 n }

theorem witness_ProfileRequestsBeginAndLoadDecides_load :
    ((withTable [loading 200] idle).body.entry 0 = some (loading 200) ∧ (loading 200).work = .profileRead 0 200 ∧
      (profile 1 2).length = 200) ∧ idle.fn = .running ∧ { idle with fn := .stopping }.fn = .stopping ∧
      idle.bp.link = .down ∧ (up .leader).bp.link ≠ .down ∧ validProfile 200 (profile 1 2) = true ∧
      validProfile 200 (profile 3 2) = false ∧ localAllows (profile 1 2) 0 (sending .due) = true ∧
      localAllows (profile 2 2) 0 (sending .due) = false ∧ (∀ i, idle.body.stream i = none) := by decide +kernel

theorem witness_WritesOfRequestsAndRingsEnd_requests :
    idle.fn = .running ∧ { idle with fn := .stopping }.fn = .stopping ∧
      (withTable [{ entry 11 with work := .peerWrites 0 [] 200 }] idle).body.entry 0 =
        some { entry 11 with work := .peerWrites 0 [] 200 } ∧
      (withTable [{ entry 7 with work := .streamWrites 0 [] }] idle).body.entry 0 =
        some { entry 7 with work := .streamWrites 0 [] } ∧
      (withTable [{ entry 12 with work := .linkWrites 0 [] }] idle).body.entry 0 =
        some { entry 12 with work := .linkWrites 0 [] } := by decide +kernel

/-! ### Witnesses: memory transfers -/

/-- The part with these writes of the Ring Interface in flight. -/
def withWrites (ws : List RingWrite) (s : State) : State := { s with body := { s.body with ringWrites := ws } }

theorem witness_WritesOfRequestsAndRingsEnd_rings :
    idle.fn = .running ∧
      (withWrites [write .event, write (.completion (.admin 0))] idle).body.ringWrites =
        [write .event] ++ write (.completion (.admin 0)) :: [] ∧
      (∀ x ∈ [write .event], x.kind = .event ∨ x.kind = .interrupt) ∧
      (∀ x ∈ [write .interrupt], x.kind ≠ .event) ∧ (∀ x ∈ [write .event], x.kind ≠ .interrupt) ∧
      (withStream0 (sending .due) idle).body.stream 0 = some (sending .due) := by decide +kernel

/-- An OUT stream whose next record has returned. -/
def returned (bits : BitVec 256) : Stream :=
  { stream .outbound .bestEffort with
    ring := { base := 0, size := 8, posted := 2, taken := 0, fetchPos := 2,
              fetches := [{ position := 1, dropped := false }], returned := [(0, bits)] } }

/-- A work record of this kind: this many bytes from address 0. -/
def workRecord (kind length : Nat) : BitVec 256 := BitVec.ofNat 256 (length * 2 ^ 64 + kind * 2 ^ 96)

/-- A work record of kind SEND: 100 bytes from address 0. -/
def sendRecord : BitVec 256 := workRecord 1 100

/-- An OUT stream with a record posted and not yet fetched. -/
def fetching : Stream :=
  let st := stream .outbound .bestEffort
  { st with ring := { st.ring with posted := 1 } }

theorem witness_WorkRecordsAreTaken :
    (withStream0 (returned sendRecord) idle).body.stream 0 = some (returned sendRecord) ∧
      (returned sendRecord).ring.fetches[0]? = some { position := 1, dropped := false } ∧
      ((returned sendRecord).state = .active ∧ (returned sendRecord).held = none ∧
        (returned sendRecord).dir = .outbound ∧ (returned sendRecord).cause = none ∧
        ((returned sendRecord).ring.next?.map Prod.fst) = some sendRecord) ∧
      (WorkRecord.read sendRecord).validSend = true ∧ (WorkRecord.read 0).validSend = false ∧
      ((returned (workRecord 2 (2 ^ 20))).dir = .outbound ∧
        { returned (workRecord 2 (2 ^ 20)) with dir := .inbound }.dir = .inbound ∧
        (WorkRecord.read (workRecord 2 (2 ^ 20))).validReceive = true ∧
        (WorkRecord.read (workRecord 2 (2 ^ 20 + 1))).validReceive = false ∧
        (WorkRecord.read (workRecord 2 0)).validReceive = false) ∧
      { returned sendRecord with state := .flushing }.state = .flushing ∧
      ({ returned sendRecord with state := .closing, cause := some .linkLost }.state = .closing ∧
        { returned sendRecord with state := .closing, cause := some .linkLost }.cause ≠ none) ∧
      ({ returned sendRecord with state := .halting }.ring.returned ≠ [] ∧
        { returned sendRecord with state := .halting }.leaveOne 0 = none ∧
        { returned sendRecord with state := .halting }.placeOne = none) ∧
      (0 < ringSub 8 (returned sendRecord).ring.posted (returned sendRecord).ring.taken ∧
        (returned sendRecord).ring.returned = [] ++ ((returned sendRecord).ring.taken, sendRecord) :: [] ∧
        (∀ p ∈ fetching.ring.returned, p.1 ≠ fetching.ring.taken) ∧
        ringSub 8 (stream .outbound .bestEffort).ring.posted (stream .outbound .bestEffort).ring.taken = 0) ∧
      (idle.env.running = true ∧ fetching.state = .active ∧ fetching.held = none ∧
        ringSub fetching.ring.size fetching.ring.fetchPos fetching.ring.taken <
          ringSub fetching.ring.size fetching.ring.posted fetching.ring.taken ∧
        fetching.ring.fetches.length + fetching.ring.returned.length + fetching.sends.length +
          fetching.receives.length < 8) ∧
      (stream .outbound .bestEffort).ring.fetchPos = (stream .outbound .bestEffort).ring.posted := by decide +kernel

/-- An OUT stream with a read that has returned and one in flight. -/
def reading : Stream :=
  { stream .outbound .bestEffort with
    sends := [{ entryA with requested := 2, read := 0, confirmed := 0 }]
    reads := [{ position := 20, addr := 0, length := 1, data := some [7] },
      { position := 20, addr := 1, length := 1, data := none }] }

theorem witness_SendReadsAndReceiveWritesEnd_reads :
    (withStream0 reading idle).body.stream 0 = some reading ∧
      reading.reads = [{ position := 20, addr := 0, length := 1, data := some [7] }] ++
        { position := 20, addr := 1, length := 1, data := none } :: [] ∧
      reading.mayHalt = true ∧ { reading with state := .aborting }.mayHalt = false ∧
      { reading with state := .halting, cause := some .linkLost }.mayHalt = false := by decide +kernel

/-- An IN stream whose packet of 2 bytes is being written: 1 byte accepted, 1 under way. -/
def draining (n : Nat) : Stream :=
  { stream .inbound .bestEffort with
    buffers := [.draining [1, 2, 3] true (.bit false) 3 true 1 n, .free], queue := [0]
    receives := [{ position := 0, tag := 0, addr := 0, capacity := 8, quiet := false, issued := n, written := 1,
                   markIssued := true, markDelivered := false, firstCycle := some 3, gap := false }]
    writes := [{ addr := 1, data := List.replicate (n - 1) 2, last := n == 3 }] }

theorem witness_SendReadsAndReceiveWritesEnd_writes :
    (withStream0 (draining 3) idle).body.stream 0 = some (draining 3) ∧ (draining 3).writeFailed = false ∧
      (draining 3).drainingIndex = some 0 ∧
      (draining 3).buffer 0 = .draining [1, 2, 3] true (.bit false) 3 true 1 3 ∧
      ([1, 2, 3] : List Byte).length ≤ 1 + ((draining 3).writes.map fun w => w.data.length).sum ∧
      1 + ((draining 2).writes.map fun w => w.data.length).sum < ([1, 2, 3] : List Byte).length ∧
      { draining 3 with writeFailed := true }.writeFailed = true := by decide +kernel

/-! ### Witnesses: what the blocks do on their own -/

/-- A marked record of 300 bytes, 2 of them requested. -/
def entryC : SendEntry :=
  { entryA with position := 22, length := 300, eom := true, requested := 2, read := 0, confirmed := 0 }

/-- An OUT stream with entry A assembled and entry C next, and a FILLING buffer of 60 bytes. -/
def filling (read : SendRead) : Stream :=
  { stream .outbound .bestEffort with
    buffers := [.filling (List.replicate 60 0), .free], sends := [entryA, entryC], reads := [read] }

/-- A read of entry C that ends at this byte of it. -/
def readOf (last n : Nat) (data : Option (List Byte)) : SendRead :=
  { position := 22, addr := BitVec.ofNat 64 (last - n), length := n, data := data }

/-- A marked record of no bytes. -/
def entryMark : SendEntry := { entryC with position := 23, length := 0, requested := 0 }

/-- A closing OUT stream with entry A assembled and 60 bytes in FILLING. -/
def closingFilled : Stream := { filling (readOf 2 2 none) with state := .closing, sends := [entryA], reads := [] }

/-- A marked record whose bytes are all requested and not all placed. -/
def entryWaiting : SendEntry := { entryC with requested := 300 }

/-- An OUT stream whose head record is confirmed whole, quiet or not. -/
def finishing (quiet : Bool) : Stream :=
  { stream .outbound .bestEffort with sends := [{ entryA with confirmed := 100, quiet := quiet }] }

theorem witness_AssemblerReadsAndPlaces :
    ((filling (readOf 2 2 none)).sends = [entryA] ++ entryC :: [] ∧
      ((filling (readOf 2 2 none)).sends.map SendEntry.position).Nodup ∧
      (∀ x ∈ [entryA], x.requested = x.length ∧ (x.eom = true → x.markCarried = true)) ∧ entryC.requested < entryC.length ∧
      (filling (readOf 2 2 none)).state = .active ∧ (filling (readOf 2 2 none)).assembleOne.isSome = true) ∧
      ((filling (readOf 4 4 none)).buffers.findIdx? Buffer.isFilling = some 0 ∧
        (filling (readOf 4 4 none)).buffer 0 = .filling (List.replicate 60 0) ∧ 60 ≤ (filling (readOf 4 4 none)).maxLen ∧
        64 - 60 = ([1, 2, 3, 4] : List Byte).length ∧
        (readOf 300 4 none).addr + BitVec.ofNat 64 4 = entryC.addr + BitVec.ofNat 64 entryC.length ∧
        (readOf 299 4 none).addr + BitVec.ofNat 64 4 ≠ entryC.addr + BitVec.ofNat 64 entryC.length) ∧
      { filling (readOf 2 2 none) with state := .flushing }.state ≠ .active ∧
      (entryMark.length = 0 ∧ entryMark.requested = 0 ∧ entryMark.eom = true ∧ entryMark.markCarried = false ∧
        { filling (readOf 2 2 none) with sends := [entryA, entryMark], reads := [] }.assembleOne.isSome = true) ∧
      ((stream .outbound .bestEffort).buffers.findIdx? Buffer.isFilling = none ∧
        (stream .outbound .bestEffort).buffers.findIdx? Buffer.isFree = some 0) ∧
      (closingFilled.state = .closing ∧ closingFilled.cause = none ∧ closingFilled.reads = [] ∧
        (∀ e ∈ closingFilled.sends, e.requested = e.length ∧ (e.eom = true → e.markCarried = true)) ∧
        closingFilled.buffer 0 = .filling (List.replicate 60 0)) ∧
      ((finishing false).sends = [{ entryA with confirmed := 100 }] ∧ (finishing false).held = none ∧
        (finishing false).state = .active ∧ (finishing false).stage = .idle ∧ (finishing true).dir = .outbound ∧
        ((finishing false).leaveOne 0).isSome = true ∧
        (finishing true).leaveOne 0 = some { finishing true with sends := [] } ∧
        closingFilled.leaveOne 0 = none) ∧
      ((entryWaiting.requested = entryWaiting.length ∧ 1 ≤ entryWaiting.length ∧ entryWaiting.eom = true ∧
        entryWaiting.markCarried = false) ∧
        (∀ e ∈ closingFilled.sends, e.requested = e.length ∧ (e.eom = true → e.markCarried = true))) := by
  decide +kernel

/-- An IN stream with a HELD packet and an open head record. -/
def delivering (data : List Byte) : Stream :=
  { stream .inbound .bestEffort with
    buffers := [.held data true (.bit false) 3 true, .free], queue := [0]
    receives := [{ position := 0, tag := 0, addr := 0, capacity := 8, quiet := false, issued := 7, written := 7,
                   markIssued := false, markDelivered := false, firstCycle := some 3, gap := false }] }

/-- An IN stream whose head record is full, quiet or not. -/
def delivered (quiet : Bool) : Stream :=
  { stream .inbound .bestEffort with
    receives := [{ position := 0, tag := 0, addr := 0, capacity := 8, quiet := quiet, issued := 8, written := 8,
                   markIssued := false, markDelivered := false, firstCycle := some 3, gap := false }] }

theorem witness_DistributorTakesAndWrites :
    ((delivering [1, 2]).state = .active ∧ (delivering [1, 2]).queue = [0] ∧
      (delivering [1, 2]).buffers.findIdx? Buffer.isDraining = none ∧
      (delivering [1, 2]).buffer 0 = .held [1, 2] true (.bit false) 3 true ∧
      (∀ e ∈ (delivering [1, 2]).receives, e.issued < e.capacity ∧ e.markIssued = false)) ∧
      (delivering []).buffer 0 = .held [] true (.bit false) 3 true ∧
      (∀ e ∈ (draining 3).receives, e.markIssued = true) ∧
      (((delivering [1, 2]).takeHeld.bind Stream.issueWrite).map fun st => st.writes.map fun w => (w.data, w.last)) =
        some [([1], false)] ∧ { delivering [1, 2] with state := .halted }.state ≠ .active ∧
      ({ delivering [1, 2] with state := .closing, stage := .waiting }.cause = none ∧
        ({ delivering [1, 2] with state := .closing, stage := .waiting }.takeHeld).isSome = true) ∧
      ((∀ e ∈ (delivered false).receives, e.capacity ≤ e.issued ∧ e.written = e.issued ∧ e.markIssued = false) ∧
        (delivered false).held = none ∧ (delivered false).stage = .idle ∧ ((delivered false).leaveOne 0).isSome = true ∧
        (delivered true).leaveOne 0 = some { delivered true with receives := [] } ∧
        (delivering [1, 2]).leaveOne 0 = none) ∧
      (holding.receives = [] ∧ (delivered false).queue = [] ∧ (draining 3).buffers.any Buffer.isDraining = true ∧
        holding.buffers.any Buffer.isDraining = false) := by decide +kernel

/-- A halted OUT stream with two outstanding records and a bad one. -/
def halting (cause : HaltCause) (stage : Stage) : Stream :=
  { stream .outbound .bestEffort with
    state := .halting, cause := some cause, stage := stage, sends := [entryA, entryB], failed := some 20
    bad := some { position := 22, tag := 0, formed := false } }

theorem witness_HaltedStreamsCompleteTheirRecords :
    ((halting .memoryError .waiting).state = .halting ∧ (halting .memoryError .waiting).cause = some .memoryError ∧
      (halting .memoryError .waiting).ring.fetches = [] ∧ (∀ r ∈ (halting .memoryError .waiting).reads, r.data ≠ none) ∧
      (halting .memoryError .waiting).writes = [] ∧ (halting .memoryError .waiting).sentIndex = none) ∧
      ((halting .memoryError (.completeAll .aborted)).held = none ∧
        (halting .memoryError (.completeAll .aborted)).dir = .outbound ∧
        (halting .memoryError (.completeAll .aborted)).failed = some entryA.position ∧
        (halting .linkLost (.completeAll .linkLost)).failed ≠ none ∧
        { halting .linkLost (.completeAll .linkLost) with failed := none }.held = none) ∧
      (halting .linkLost .leaving).headEnded = false ∧ { halting .linkLost .leaving with dir := .inbound }.dir = .inbound ∧
      (halting .linkLost .finished).request = none ∧
      ((sending .due).sentIndex ≠ none ∧ (sending .due).seq = .bestEffortOut false true 0) ∧
      ({ halting .badRecord (.completeAll .aborted) with dir := .inbound, sends := [] }.receives = [] ∧
        { halting .badRecord (.completeAll .aborted) with sends := [] }.bad = some ⟨22, 0, false⟩ ∧
        (draining 3).receives ≠ []) ∧
      { halting .badRecord (.completeAll .aborted) with bad := some ⟨22, 0, true⟩ }.bad = some ⟨22, 0, true⟩ ∧
      (halting .linkLost .awaitWrite).stage = .awaitWrite ∧
      ({ draining 3 with state := .halting, cause := some .linkLost, stage := .waiting, writes := [] }.dir = .inbound ∧
        { draining 3 with state := .halting, cause := some .linkLost, stage := .completeHead .linkLost }.held = none) := by
  decide +kernel

/-- R53: where a read fails in a stream halted for another cause than MEMORY_ERROR every outstanding record completes
ABORTED, also for LINK_LOST; a later error of a MEMORY_ERROR halt leaves the failed record as it was. -/
theorem test_read_error_in_a_halt :
    let st := fun cause failed => { halting cause (.completeAll cause.status) with failed := failed }
    let read : SendRead := { position := 21, addr := 0, length := 4, data := none }
    ((st .linkLost none).readFailed 0 read).entryStatus entryA .linkLost = .aborted ∧
      (st .linkLost none).entryStatus entryA .linkLost = .linkLost ∧
      ((st .memoryError (some 20)).readFailed 0 read).failed = some 20 ∧
      (st .memoryError (some 20)).mayHalt = false ∧ (st .linkLost none).mayHalt = false := by decide +kernel

/-- A stream of this direction in this state and stage, with a request of its own under way. -/
def ending (dir : Direction) (state : StreamState) (stage : Stage) (request : Request) : Stream :=
  { stream dir .bestEffort with state := state, stage := stage, request := some request }

/-- A flush that a halt interrupted after its FLUSHED completion was formed. -/
def flushHalted : Stream :=
  { ending .inbound .halting .finished .flushRest with
    cause := some .linkLost
    held := some { completion := { held.completion with kind := .receive, status := .flushed }, stage := .waiting } }

/-- R20: the flush does not end before its FLUSHED completion has been written. -/
theorem test_flush_waits_for_its_completion :
    (flushHalted.wind 0).isNone = true ∧
      ({ flushHalted with held := none }.wind 0).map Prod.snd = some .flushed := by decide +kernel

theorem witness_FlushCloseAndAbortRunToTheirEnd :
    ((ending .outbound .flushing .waiting .flush).reads = [] ∧ (ending .outbound .flushing .waiting .flush).sentIndex = none ∧
      (ending .inbound .flushing .waiting .flush).writes = [] ∧ (draining 3).writes ≠ [] ∧
      (ending .outbound .flushing .leaving .flush).headEnded = false ∧
      (sending .due).sentIndex ≠ none ∧ (∃ r ∈ reading.reads, r.data = none)) ∧
      ((ending .outbound .closing .waiting .close).sends = [] ∧
        (∀ b ∈ (ending .outbound .closing .waiting .close).buffers, b = .free) ∧
        (ending .outbound .closing .waiting .close).ring.fetches = [] ∧
        (ending .outbound .closing .waiting .close).held = none ∧ (sending .due).buffers ≠ [.free, .free]) ∧
      ((ending .inbound .closing .waiting .close).receives = [] ∧ (ending .inbound .closing .leaving .close).headEnded = false ∧
        (ending .inbound .closing .finished .close).ring.returned = [] ∧
        (∀ b ∈ (ending .inbound .closing .finished .close).buffers, b.isReceiving = false)) ∧
      ((ending .outbound .aborting .finished .close).ring.fetches = [] ∧ adminRing.fetches ≠ []) ∧
      ((ending .inbound .halting .finished .flush).request = some .flush ∧
        (ending .inbound .halting .finished .close).request = some .close ∧
        (ending .outbound .halting .finished .flushRest).request = some .flushRest) ∧
      ((ending .outbound .flushing (.completeAll .flushed) .flush).held = none ∧ (draining 3).receives ≠ []) ∧
      ({ flushHalted with held := some held }.held = some held ∧ held.completion.status ≠ .flushed ∧
        flushHalted.held.map (·.completion.status) = some .flushed ∧ flushHalted.stage = .finished ∧
        flushHalted.state = .halting ∧ flushHalted.request = some .flushRest) ∧
      ((draining 3).receives ≠ [] ∧ { draining 3 with stage := .completeHead .flushed }.held = none) := by
  decide +kernel

/-- An ARMED ring of 8 with one position free, at the end of its pass. -/
def lastRing : PartRing := { partRing with put := 7, freed := 1 }

theorem witness_RingInterfaceServesItsRings :
    (lastRing.lawful ∧ lastRing.space = 1 ∧ (lastRing.write .event fun _ => []).1.put = 0) ∧
      (idle.body.event = some partRing ∧ partRing.lawful ∧ partRing.space = 5) ∧
      (idle.body.completion[(0 : Fin 4)] = some { ring := partRing, waiting := [] } ∧ ([] : List Source).Nodup) ∧
      ((withTable [{ entry 8 with
        held := some { completion := badCompletion 0 .outbound ⟨0, 0, false⟩ .badRecord, stage := .waiting } }] idle).body.heldOf
          (.admin 0)).isSome = true ∧
      (idle.env.running = true ∧ idle.body.admin = some adminRing ∧ adminRing.lawful ∧
        ringSub adminRing.size adminRing.fetchPos adminRing.taken ≤
          ringSub adminRing.size adminRing.posted adminRing.taken) := by
  refine ⟨⟨⟨by decide, by decide, by decide⟩, by decide, by decide⟩, ⟨rfl, ⟨by decide, by decide, by decide⟩, by decide⟩,
    ⟨by decide, .nil⟩, by decide +kernel, rfl, rfl, ⟨by decide, by decide, by decide, by decide⟩, by decide⟩

/-- R160: streams join in increasing stream number, then the requests; a BAD_NOTIFY of ring 22 has its ring in byte 4. -/
theorem witness_RingInterfaceServesItsRings_joins :
    let formed : Held := { held with stage := .formed }
    let s := withStream0 { sending .due with held := some formed } (withTable [{ entry 8 with held := some formed }] idle)
    idle.body.completion[(0 : Fin 4)] = some { ring := partRing, waiting := [] } ∧ (s.body.table.map Entry.id).Nodup ∧
      (s.body.joinAll.completion[(0 : Fin 4)]).map CompletionRing.waiting = some [.stream 0, .admin 0] ∧ 22 < 256 ∧
      (({ source := none, detail := .badNotify 22 5, count := 1 } : Event).bytes true).take 8 =
        [6, 0xFF, 1, 0x80, 22, 0, 5, 0] := by decide +kernel

/-- An IN stream watched at or above 3 bytes, with this condition. -/
def watched (data : List Byte) (condition : Bool) : Stream :=
  { stream .inbound .bestEffort with
    buffers := [.receiving data, .free]
    watch := some { threshold := 3, dir := .atOrAbove, measure := .wholeStore, condition := condition } }

/-- A store event from 2 bytes to 3 changes the condition, one from 1 to 2 does not. -/
theorem witness_WatchesFollowTheStore :
    ((withStream0 (watched [1, 2] false) idle).body.stream 0 = some (watched [1, 2] false) ∧
      (watched [1, 2] false).measure .wholeStore ≠ (watched [1, 2, 3] false).measure .wholeStore ∧
      3 ≤ (watched [1, 2, 3] false).measure .wholeStore ∧ ¬3 ≤ (watched [1, 2] false).measure .wholeStore) ∧
      (sending .due).watch = none := by decide +kernel

/-! ### Witnesses: DATA frames -/

theorem up_receives (role : Role) : (up role).receives := ⟨rfl, rfl, rfl⟩

/-- An IN stream with a buffer claimed by the frame that is arriving. -/
def receiving (cls : StreamClass) : Stream :=
  { stream .inbound cls with buffers := [.receiving [], .free] }

/-- A frame for stream 0 that has claimed buffer 0. -/
def reception (cls : StreamClass) (length : Nat) : Reception :=
  { header := { stream := 0, cls := cls, mark := false, bit := false, counter := 0, slot := 0, length := length }
    arrived := [], claim := some 0 }

/-- The part UP with that frame arriving for this stream. -/
def arriving (cls : StreamClass) (length : Nat) (st : Stream) : State :=
  let s := withStream0 st (up .leader)
  { s with body := { s.body with rx := some (reception cls length) } }

theorem witness_DataFramesClaimBuffers :
    ((withStream0 (receiving .scheduled) idle).fn ≠ .faulted ∧ { up .leader with lsig := false }.lsig = false ∧
      (idle.lsig = true ∧ idle.bp.link ≠ .up ∧ idle.body.rx = none) ∧
      (arriving .scheduled 64 (receiving .scheduled)).body.rx = some (reception .scheduled 64) ∧
      { reception .scheduled 64 with claim := none }.claim = none ∧ (reception .scheduled 64).header.cls = .scheduled ∧
      (reception .bestEffort 64).header.cls = .bestEffort ∧ (reception .bestEffort 64).claim = some 0) ∧
      (withStream0 holding (up .leader)).receives ∧
      (byteAt 0x0000004000001001#64 0 = 1 ∧ (up .leader).body.rx = none ∧
        (DataHeader.read 0x0000004000001001#64).stream = 0 ∧
        (DataHeader.read 0x0000004000001001#64).cls = holding.cls ∧
        (DataHeader.read 0x0000004000001001#64).length = 64 ∧ holding.maxLen = 64 ∧
        holding.buffers.findIdx? Buffer.isFree = some 1) ∧
      (DataHeader.read 0x0000004100001001#64).length = 65 ∧
      ((arriving .bestEffort 64 (receiving .bestEffort)).body.rx = some (reception .bestEffort 64) ∧
        (reception .bestEffort 64).claim = some 0) :=
  ⟨by decide +kernel, up_receives .leader, by decide +kernel⟩

/-- The notice queue with one notice for stream 0. -/
def withNotice (closed : Bool) (sends : Nat) (s : State) : State :=
  { s with body := { s.body with lt := { s.body.lt with
    notices := [{ stream := 0, closed := closed, sends := sends, waited := true, due := false }] } } }

theorem witness_BestEffortFramesAreDecided :
    (arriving .bestEffort 64 (receiving .bestEffort)).receives ∧
      ((arriving .bestEffort 64 (receiving .bestEffort)).body.rx = some (reception .bestEffort 64) ∧
        (reception .bestEffort 64).header.length ≤ 1024) ∧
      (up .leader).body.stream 0 = none ∧ (sending .due).dir ≠ .inbound ∧
      (receiving .bestEffort).maxLen < (reception .bestEffort 68).header.length ∧
      (reception .bestEffort 64).header.length ≤ (receiving .bestEffort).maxLen ∧
      (receiving .bestEffort).state = .active ∧ { receiving .bestEffort with state := .halted }.state ≠ .active ∧
      (∃ n ∈ (withNotice false 1 (up .leader)).body.lt.notices, n.stream = 0 ∧ n.closed = false) ∧
      (∀ n ∈ (withNotice true 1 (up .leader)).body.lt.notices, n.stream = 0 → n.closed = true) ∧
      ((receiving .bestEffort).seq = .bestEffortIn false ∧ (reception .bestEffort 64).claim = some 0 ∧
        { reception .bestEffort 64 with claim := none }.claim = none) :=
  ⟨up_receives .leader, by decide +kernel⟩

theorem witness_ScheduledFramesAreDecided :
    (arriving .scheduled 64 (receiving .scheduled)).receives ∧
      ((arriving .scheduled 64 (receiving .scheduled)).body.rx = some (reception .scheduled 64) ∧
        (reception .scheduled 64).header.length ≤ 1024) ∧
      (up .leader).body.stream 0 = none ∧ (sending .due).dir = .outbound ∧
      (receiving .scheduled).seq = .scheduledIn 0 false true ∧ (reception .scheduled 64).claim = some 0 ∧
      (receiving .scheduled).maxLen < (reception .scheduled 68).header.length ∧
      (reception .scheduled 64).header.slot.toNat < (receiving .scheduled).perCycle ∧
      ¬((1 : Byte).toNat < (receiving .scheduled).perCycle) ∧ (receiving .scheduled).state = .active :=
  ⟨up_receives .leader, by decide +kernel⟩

/-! ### Witnesses: answers and notices -/

theorem sending_only (a : AnswerCondition) : ∀ j, j ≠ 0 → ((sending a).buffer j).isSent = false
  | 0, h => absurd rfl h
  | 1, _ => rfl
  | _ + 2, _ => rfl

theorem witness_AcceptConfirmsAndGoneHalts_accept :
    (withStream0 (sending .awaiting0) (up .leader)).receives ∧
      (withStream0 (sending .awaiting0) (up .leader)).body.stream 0 = some (sending .awaiting0) ∧
      (sending .awaiting0).sentIndex = some 0 ∧ (sending .awaiting0).buffer 0 = .sent [1] false false .awaiting0 ∧
      (sending .awaiting0).seq = .bestEffortOut false true 0 ∧
      { sending .awaiting0 with seq := .bestEffortOut false false 0 }.seq = .bestEffortOut false false 0 ∧
      holding.sentIndex = none ∧ (up .leader).body.stream 0 = none :=
  ⟨up_receives .leader, by decide +kernel⟩

theorem witness_DeferPutsThePacketOff :
    (withStream0 (sending .awaiting1) (up .leader)).receives ∧ (sending .awaiting1).sentIndex = some 0 ∧
      (sending .awaiting1).buffer 0 = .sent [1] false false .awaiting1 ∧
      ((sending .awaiting1).state ≠ .flushing ∧ (sending .awaiting1).state ≠ .halting) ∧
      (sending .awaiting1).seq = .bestEffortOut false true 0 ∧ (true ≠ false) ∧
      { sending .awaiting1 with state := .halting }.state = .halting ∧
      { sending .awaiting1 with state := .flushing }.state = .flushing ∧ holding.sentIndex = none ∧
      (up .leader).body.stream 0 = none :=
  ⟨up_receives .leader, by decide +kernel⟩

theorem witness_AcceptConfirmsAndGoneHalts_gone :
    (withStream0 (sending .due) (up .leader)).receives ∧ (sending .due).cls = .bestEffort ∧
      (sending .due).dir = .outbound ∧ (sending .due).sentIndex = some 0 ∧ (sending .due).mayHalt = true ∧
      { sending .due with state := .halting }.state = .halting ∧ holding.dir = .inbound ∧
      (sending .due).seq = .bestEffortOut false true 0 ∧ givenUp.seq = .bestEffortOut false false 0 ∧
      givenUp.state = .halting ∧ (∀ j, j ≠ 0 → ((sending .due).buffer j).isSent = false) :=
  ⟨up_receives .leader, by decide, by decide, by decide, by decide, by decide, by decide, by decide, by decide, by decide,
    sending_only _⟩

theorem witness_NoticeActsOnTheStream :
    (withStream0 (sending .due) (up .leader)).receives ∧ (sending .due).mayHalt = true ∧
      { sending .due with state := .halting }.state = .halting ∧ (sending .due).seq = .bestEffortOut false true 0 ∧
      (givenUp.state = .halting ∧ givenUp.sentIndex ≠ none ∧ givenUp.seq.inFlight = false) ∧ { sending .due with state := .halted }.state = .halted ∧
      ((sending .due).cls = .bestEffort ∧ (sending .due).dir = .outbound ∧ (sending .due).sentIndex ≠ none) ∧
      holding.dir = .inbound ∧ (up .leader).body.stream 0 = none :=
  ⟨up_receives .leader, by decide +kernel⟩

theorem witness_NoticeAckRemovesTheNotice :
    (withNotice false 1 (up .leader)).receives ∧
      (∀ n ∈ (withNotice false 1 (up .leader)).body.lt.notices, n.stream = 0 → (1 : Byte) = if n.closed then 2 else 1) ∧
      (∀ n ∈ (withNotice false 1 (up .leader)).body.lt.notices, n.stream = 0 → (2 : Byte) ≠ if n.closed then 2 else 1) :=
  ⟨up_receives .leader, by decide +kernel⟩

/-! ### Witnesses: cycles -/

theorem witness_CycleStartFollowsTheMarker :
    ((up .follower).fn = .running ∧ (up .follower).lsig = true ∧ (up .follower).ce.role = some .follower ∧
      (up .follower).bp.link = .up ∧ (up .follower).ce.firstMarker = false ∧
      (1 : CycleNum) = (up .follower).ce.cycle + 1 ∧ (2 : CycleNum) ≠ (up .follower).ce.cycle + 1 ∧
      (up .follower).ce.sync ≠ .coasting) ∧
      (0xFFFF : CycleNum) + 1 = 0 ∧ (up .leader).ce.role ≠ some .follower ∧ idle.bp.link = .down ∧
      ((bringing .exchanging .follower).ce.firstMarker = true ∧
        (bringing .exchanging .follower).bp.incoming = some { next := 0, bytes := [], done := false }) := by decide +kernel

/-- A best-effort OUT stream whose packet has gone fifteen times unanswered. -/
def unanswered : Stream := { sending .awaiting1 with seq := .bestEffortOut false true 15 }

theorem witness_CycleStartsAdvanceAnswersAndNotices :
    ((withStream0 unanswered (up .leader)).body.stream 0 = some unanswered ∧ unanswered.sentIndex = some 0 ∧
      unanswered.buffer 0 = .sent [1] false false .awaiting1 ∧ unanswered.seq = .bestEffortOut false true 15 ∧
      unanswered.mayHalt = true) ∧
      (sending .awaiting0).buffer 0 = .sent [1] false false .awaiting0 ∧
      (sending .due).buffer 0 = .sent [1] false false .due ∧ holding.sentIndex = none ∧
      ({ unanswered with state := .halting, cause := some .memoryError }.state = .halting ∧
        (((withStream0 { unanswered with state := .halting, cause := some .memoryError } (up .leader)).body.advanceAnswer
          true 0).stream 0).map (fun st => (st.cause, st.buffer 0, st.seq)) =
          some (some .memoryError, .free, .bestEffortOut false false 0)) ∧
      (∃ x ∈ (withNotice true 8 (up .leader)).body.lt.notices, x.due = false ∧ x.waited = true ∧ 8 ≤ x.sends) ∧
      (∀ x ∈ (withNotice true 7 (up .leader)).body.lt.notices, ¬(x.due = false ∧ x.waited = true ∧ 8 ≤ x.sends)) ∧
      (withStream0 unanswered (withNotice true 8 (up .leader))).body.events = [] ∧ unanswered.watch = none := by
  decide +kernel

theorem witness_LeaderJudgesCyclesByTheirEchoes :
    ((up .leader).fn = .running ∧ (up .leader).lsig = true ∧ (up .leader).ce.role = some .leader ∧
      (up .leader).bp.link = .up ∧ (up .leader).ce.periodEnds = some 125 ∧ (up .leader).ce.echoSeen = some false ∧
      (up .leader).ce.echoMiss < 15) ∧ (up .follower).ce.role ≠ some .leader ∧
      ({ up .leader with now := 125 }.now = 125 ∧ (up .leader).now < 125 ∧ idle.ce.periodEnds = none) ∧
      { (up .leader).ce with echoMiss := 15 }.echoMiss = 15 ∧
      { (up .leader).ce with echoSeen := some true }.echoSeen = some true := by decide +kernel

theorem witness_FollowerCoastsOrLosesSync :
    ((up .follower).fn = .running ∧ (up .follower).ce.role = some .follower ∧ (up .follower).bp.link = .up ∧
      (up .follower).ce.expected = some 125 ∧ (up .follower).ce.sync = .locked ∧ (up .follower).ce.coasting = 0) ∧
      (125 + (up .follower).ce.inForce.grace = 132 ∧ (up .follower).now < 132 ∧ idle.ce.expected = none) ∧
      { (up .follower).ce with sync := .coasting, coasting := 6 }.coasting < 7 ∧
      { (up .follower).ce with sync := .coasting, coasting := 7 }.coasting = 7 := by decide +kernel

/-! ### Witnesses: bring-up -/

theorem witness_HelloBeginsTheExchange :
    ((bringing .calling .leader).fn = .running ∧ (bringing .calling .leader).lsig = true ∧
      (bringing .calling .leader).bp.link = .calling ∧ (bringing .calling .leader).ce.role = some .leader ∧
      (bringing .calling .leader).ce.period = some .us125) ∧
      (Role.leader.code = (1 : Byte).toNat ∧ Role.leader.code ≠ (2 : Byte).toNat ∧
        Period.us125.us = (125#16).toNat ∧ Period.us125.us ≠ (250#16).toNat) ∧
      ((7#16).toNat < 8 ∧ 8 ≤ (8#16).toNat ∧ (256#16).toNat ≤ 256 ∧ 256 < (257#16).toNat) ∧
      (bringing .exchanging .leader).bp.peerHello =
        some { role := 2, period := 125, length := 8, check := checkValue emptyProfile } ∧
      idle.bp.link = .down ∧ (up .leader).bp.link = .up := by decide +kernel

theorem witness_ProfileChunksAreStored :
    ((bringing .exchanging .leader).bp.link = .exchanging ∧
      (bringing .exchanging .leader).bp.incoming = some { next := 0, bytes := [], done := false } ∧
      ((8#16).toNat + 63) / 64 = 1 ∧ emptyProfile.length = 8 - 64 * 0 ∧
      checkValue ([] ++ emptyProfile) = checkValue emptyProfile ∧ validProfile 8 emptyProfile = true) ∧
      validProfile 8 [9, 0, 0, 0, 0, 0, 0, 0] = false ∧ ((65#16).toNat + 63) / 64 = 2 ∧ 65 - 64 * 1 = 1 ∧
      ((64#16).toNat + 63) / 64 = 1 ∧ idle.bp.link = .down ∧ (up .leader).bp.link = .up := by decide +kernel

theorem witness_ProfileAcksMoveTheExchange :
    ((bringing .exchanging .leader).bp.link = .exchanging ∧
      (bringing .exchanging .leader).bp.outgoing = some { chunk := 0, sends := 1, timer := some 1000, done := false } ∧
      ((bringing .exchanging .leader).bp.localProfile.length + 63) / 64 ≤ 0 + 1 ∧ (0 : Byte).toNat = 0) ∧
      0 + 1 < ((profile 1 2).length + 63) / 64 ∧ (bringing .exchanging .follower).ce.role ≠ some .leader ∧
      idle.bp.link ≠ .exchanging := by decide +kernel

theorem witness_BringUpTimersExpire :
    ((bringing .exchanging .leader).fn = .running ∧ (bringing .exchanging .leader).bp.helloEnds = some 1000 ∧
      (∀ f ∈ (bringing .exchanging .leader).body.lt.due ++ (bringing .exchanging .leader).body.lt.fresh,
        f.isHello = false) ∧ (bringing .exchanging .leader).ce.role = some .leader ∧
      (bringing .exchanging .leader).ce.period = some .us125) ∧
      (∃ f ∈ [ControlFrame.hello 1 125 8 0], f.isHello = true) ∧
      (bringing .exchanging .leader).bp.outgoing = some { chunk := 0, sends := 1, timer := some 1000, done := false } ∧
      (bringing .calling .leader).bp.bringUpEnds = some 100000 ∧
      ((bringing .calling .leader).now < 1000 ∧ { bringing .calling .leader with now := 100000 }.now = 100000 ∧
        idle.bp.helloEnds = none ∧ idle.bp.bringUpEnds = none ∧ idle.bp.outgoing = none) := by decide +kernel

theorem witness_FarewellAndSignalTakeTheLinkDown :
    (idle.fn ≠ .faulted ∧ idle.bp.link ≠ .up ∧ { up .leader with lsig := false }.lsig = false ∧
      { up .leader with lsig := false }.bp.link = .up) ∧ (idle.fn = .running ∧ idle.lsig = true ∧ idle.bp.link = .down ∧ idle.bp.signal = true) ∧
      (bringing .exchanging .leader).bp.link = .exchanging ∧ (bringing .calling .leader).bp.link = .calling ∧
      (up .leader).bp.link = .up := by decide +kernel

theorem witness_GoingDown :
    ((up .leader).leaveUp .noSignal = (up .leader).leaveUp .noSignal ∧ DownCause.noSignal ≠ .syncLost ∧
      DownCause.noSignal ≠ .peerSilent) ∧
      (entry 8 ∈ (withTable [entry 8] (bringing .calling .leader)).body.table ∧ (entry 8).held = none ∧
        (withTable [entry 8] (bringing .calling .leader)).bp.pendingLinkUp = some (entry 8).id) ∧
      (((withStream0 (sending .due) (up .leader)).leaveUp .noSignal).body.stream 0).isSome = true ∧
      ((withStream0 (sending .due) (up .leader)).body.events = [] ∧ (sending .due).watch = none) ∧
      ((withStream0 (sending .due) (up .leader)).leaveUp .noSignal).body.events =
        [{ source := none, detail := .linkState .down (some .noSignal), count := 1 },
          { source := some 0, detail := .streamHalted .linkLost, count := 1 }] ∧
      (sending .due).mayHalt = true ∧ { sending .due with state := .halted }.mayHalt = false ∧
      (givenUp.mayHalt = false ∧ givenUp.buffers.any Buffer.isSent = true ∧ givenUp.seq = .bestEffortOut false false 0 ∧
        { sending .due with state := .halting }.seq = .bestEffortOut false true 0) := by decide +kernel

theorem witness_ReachingUpExaminesTheStreams :
    ((withStream0 (sending .due) idle).body.stream 0 = some (sending .due) ∧
      (((withStream0 (sending .due) idle).body.examine (profile 2 2) 2400).stream 0).isSome = true ∧
      (sending .due).mayHalt = true ∧ peerAllows (some (profile 2 2)) 0 (sending .due) = true ∧
      (sending .due).cls = .bestEffort) ∧ peerAllows (some emptyProfile) 0 (sending .due) = false ∧
      { sending .due with state := .halted }.mayHalt = false ∧
      ((reserving 512 2).mayHalt = true ∧ (reserving 512 2).cls = .scheduled ∧ (reserving 512 2).dir = .outbound ∧
        peerAllows (some (profile 2 1)) 1 (reserving 512 2) = true ∧ 0 + 2 * (512 + 12) ≤ 1048 ∧
        ¬(1048 + 1 * (512 + 12) ≤ 1048)) ∧
      (bringing .exchanging .leader).ce.period = some .us125 := by decide +kernel

/-! ### Witnesses: the lane and frames -/

/-- A scheduled OUT stream whose packet is on the lane. -/
def scheduled : Stream :=
  { stream .outbound .scheduled with buffers := [.committed [1] false, .free], queue := [0] }

/-- The part with this frame on its lane. -/
def withLane (l : Lane) (s : State) : State :=
  { s with body := { s.body with lt := { s.body.lt with lane := some l } } }

/-- The part with the turns at this position and this round-robin position. -/
def withTurn (turn : Turn) (roundRobin : StreamId) (s : State) : State :=
  { s with body := { s.body with lt := { s.body.lt with turn := some turn, roundRobin := roundRobin, budget := 13 } } }

theorem witness_FramesAreChosenInOrder :
    let served := withTurn (.at 0 0) 15 (withStream0 scheduled (up .leader))
    let scanned := withTurn .over 0 (withStream0 (sending .due) (up .leader))
    (served.body.lt.lane = none ∧ served.body.lt.markerDue = false ∧ served.body.lt.due = [] ∧ served.env.up = true ∧
      served.body.lt.turn = some (.at 0 0) ∧ scheduled.cls = .scheduled ∧ scheduled.dir = .outbound ∧
      scheduled.state = .active ∧ 0 < scheduled.perCycle ∧ scheduled.buffer 0 = .committed [1] false ∧
      scheduled.seq = .scheduledOut 0) ∧
      scheduled.perCycle ≤ 1 ∧ (served.body.startFrame served.env).lt.turn = some (.at 0 1) ∧ idle.env.up = false ∧
      (scanned.body.lt.turn = some .over ∧ (sending .due).queue = [0] ∧ ((sending .due).buffer 0).count + 12 ≤ 13 ∧
        (sending .due).buffer 0 = .sent [1] false false .due ∧ (sending .due).seq = .bestEffortOut false true 0 ∧
        (∀ n ∈ scanned.body.lt.notices, n.stream = 0 → n.closed = true) ∧
        (scanned.body.startFrame scanned.env).lt.budget = 0) ∧
      (up .leader).body.stream 0 = none ∧ (sending .due).cls ≠ .scheduled ∧
      ({ (up .leader).body with lt := { (up .leader).body.lt with
        fresh := [.gone 3, .cycleEcho 1, .accept 3 true, .defer 1 false] } }.mergeDue.lt.due =
          [.cycleEcho 1, .defer 1 false, .gone 3, .accept 3 true]) := by decide +kernel

theorem witness_FramesEndOnTheLane :
    (up .leader).fn = .running ∧ (up .leader).body.lt.lane = none ∧
      ((withLane (.control (.gone 0)) (up .leader)).body.lt.lane = some (.control (.gone 0)) ∧
        (ControlFrame.gone 0).isFarewell = false) ∧
      (withLane (.control .farewell) (up .leader)).body.lt.lane = some (.control .farewell) ∧
      (withLane (.data (reception .scheduled 1).header 0 [1]) (up .leader)).body.lt.lane =
        some (.data (reception .scheduled 1).header 0 [1]) ∧
      ((withStream0 scheduled (up .leader)).body.stream 0 = some scheduled ∧ scheduled.seq = .scheduledOut 0 ∧
        scheduled.state = .active) ∧
      { scheduled with state := .closing, cause := some .linkLost }.cause ≠ none := by decide +kernel

theorem witness_ConfirmedBytesAreCreditedInRingOrder :
    (∀ e ∈ [entryA, entryB], e.confirmed ≤ e.length) ∧ [entryA, entryB][1]? = some entryB ∧
      (creditBytes 64 [entryA, entryB])[1]? = some { entryB with confirmed := 28 } ∧
      (entryB.eom = true ∧ entryB.markCarried = true ∧ entryB.markConfirmed = false ∧ entryA.eom = false) ∧
      (entryA.confirmed ≠ entryA.length ∧ { entryA with confirmed := 100 }.confirmed = entryA.length) := by decide

theorem witness_FramesAreReadAsSent :
    (List.replicate 64 (0 : Byte)).length < 2 ^ 16 ∧ (List.replicate 1024 (0 : Byte)).length = 1024 ∧
      ((reception .bestEffort 1024).header.length ≤ 1024 ∧ (reception .bestEffort 0).header.length = 0 ∧
        (reception .bestEffort 1024).header.counter = 0 ∧ (reception .scheduled 1024).header.bit = false) ∧
      (checkPasses (sealFrame [2, 0, 0]) = true ∧ ((sealFrame [2, 0, 0]).getD 0 0).toNat = 2 ∧
        (sealFrame [2, 0, 0]).length - 4 ≠ 4 ∧ commandsOfFrame (sealFrame [2, 0, 0]) = [.invalidFrame]) ∧
      (checkPasses (sealFrame [1, 0, 0, 0, 1, 0, 0, 0]) = true ∧
        (sealFrame [1, 0, 0, 0, 1, 0, 0, 0]).length - 4 ≠ 8 + leVal [1, 0]) ∧
      checkPasses [] = false ∧ (((sealFrame [13]).getD 0 0).toNat = 13 ∧ ((sealFrame [0]).getD 0 0).toNat = 0) := by
  decide +kernel

/-! ### Witnesses: the laws

One state with the link UP, stream 0 open with a SENT packet, and a command waiting, meets every law, and its step gives
a next state. -/

def lawful : State :=
  let s := withStream0 (sending .due) (up .leader)
  { s with
    pending := [.transmitFrameEnd]
    body := { s.body with blocks := allocate 0 64 2 s.body.blocks, admin := some { adminRing with fetches := [] } } }

theorem lawful_streams : ∀ i, ∀ st ∈ lawful.body.stream i, i = 0 ∧ st = sending .due := by decide +kernel

theorem witness_LinkLawIsKept : LinkLaw lawful ∧ ∃ t, step lawful = .next t :=
  ⟨⟨by decide, by decide, by decide, by decide, by decide, by decide, by decide, by decide, (fun _ h => nomatch h),
    by decide, by decide, by decide, by decide, by decide, by decide, by decide, by decide, rfl, .inl (by decide),
    by decide, by decide⟩, ⟨_, rfl⟩⟩

theorem witness_FunctionLawIsKept : FunctionLaw lawful :=
  ⟨by decide, by decide, fun h => absurd h (by decide), fun _ => by decide +kernel, fun h => absurd h (by decide), rfl⟩

theorem witness_EventNoticeAndRingLawsAreKept :
    LinkLaw lawful ∧ EventLaw lawful ∧ TransferLaw lawful ∧ RingLaw lawful := by
  refine ⟨witness_LinkLawIsKept.1, ⟨by decide, by decide⟩, ⟨by decide, by decide⟩, ⟨?_, by decide, ?_, ?_, ?_, ?_⟩⟩
  · rintro r ⟨⟩; exact ⟨by decide, by decide, by decide, by decide⟩
  · have all : ∀ c : Fin 4, ∀ cr ∈ lawful.body.completion[c], cr.ring = partRing := by decide +kernel
    intro c cr h; rw [all c cr h]; exact ⟨by decide, by decide, by decide⟩
  · rintro r ⟨⟩; exact ⟨by decide, by decide, by decide⟩
  · intro i st h; rw [(lawful_streams i st h).2]; exact ⟨by decide, by decide, by decide, by decide⟩
  · intro i st h; rw [(lawful_streams i st h).2]; decide

theorem sending_buffers : BufferLaw (sending .due) where
  inRange := ⟨by decide, by decide, by decide, by decide⟩
  suits := by decide
  fits := by decide
  oneFilling := by decide
  oneDraining := by decide
  oneSent := by decide
  queueNodup := by decide
  queued
    | 0 => by decide
    | 1 => by decide
    | n + 2 => by simp [sending, stream, Stream.buffer, Buffer.isQueued, Buffer.isQueuedOut, Buffer.isCommitted,
        Buffer.isSent, Buffer.isKept, Buffer.isHeld, Buffer.isDraining]
  head
    | 0, _ => rfl
    | 1, h => absurd h (by decide)
    | n + 2, h => by
      simp [sending, stream, Stream.buffer, Buffer.isSent, Buffer.isDraining] at h
  ofDirection := ⟨rfl, rfl⟩

theorem witness_StoreLawIsKept : StoreLaw lawful := by
  refine ⟨fun i st h => ?_, fun i st h k hk => ?_, (fun _ h => nomatch h), (fun _ _ _ h => nomatch h)⟩
  · rw [(lawful_streams i st h).2]; exact sending_buffers
  · rw [(lawful_streams i st h).2] at hk
    match k, hk with
    | 0, hk => exact absurd hk (by decide)
    | 1, hk => exact absurd hk (by decide)
    | n + 2, hk => simp [sending, stream, Stream.buffer, Buffer.isReceiving] at hk

theorem witness_BlockAndReservationLawsAreKept_blocks : BlockLaw lawful := ⟨by decide +kernel, by decide +kernel⟩

theorem witness_BlockAndReservationLawsAreKept_reservations : ReservationLaw lawful :=
  ⟨by decide +kernel, fun i st h k => by rw [(lawful_streams i st h).2] at k; exact absurd k (by decide)⟩

end Sys2Proof.Tests
end

section
/-! SUPPORT. How a stream request reaches its chapter: its record is read as it was written, it is admitted, and the
return of its fetch does what the request does and what follows, no more (R157, R168, R170). -/

namespace Sys2Proof.Machine

open Sys2Proof Host

/-! ### Records -/

/-- Of two values side by side, what is read from the start of the upper one on is read from the upper one. -/
theorem extract_above {v w start : Nat} (len : Nat) (hi : BitVec v) (lo : BitVec w) (h : w ≤ start) :
    (hi ++ lo).extractLsb' start len = hi.extractLsb' (start - w) len := BitVec.extractLsb'_append_eq_of_le h

/-- The fields of a request's bytes are those it was written from (11.4, "Admin request"). -/
@[simp] theorem AdminRecord.read_bits (r : AdminRecord) : AdminRecord.read r.bits = r := by
  obtain ⟨code, field, zero, p0, p1, p2, p3, tag, addr, w1, w2⟩ := r
  simp only [AdminRecord.read, AdminRecord.bits, byteAt, addrAt, wordAt, AdminRecord.mk.injEq]
  refine ⟨BitVec.extractLsb'_append_eq_right, ?_, ?_, ?_, ?_, ?_, ?_, ?_, ?_, ?_, ?_⟩
  · exact (extract_above 8 _ code (by decide)).trans BitVec.extractLsb'_append_eq_right
  · iterate 2 refine (extract_above 16 _ _ (by decide)).trans ?_
    exact BitVec.extractLsb'_append_eq_right
  · iterate 3 refine (extract_above 8 _ _ (by decide)).trans ?_
    exact BitVec.extractLsb'_append_eq_right
  · iterate 4 refine (extract_above 8 _ _ (by decide)).trans ?_
    exact BitVec.extractLsb'_append_eq_right
  · iterate 5 refine (extract_above 8 _ _ (by decide)).trans ?_
    exact BitVec.extractLsb'_append_eq_right
  · iterate 6 refine (extract_above 8 _ _ (by decide)).trans ?_
    exact BitVec.extractLsb'_append_eq_right
  · iterate 7 refine (extract_above 64 _ _ (by decide)).trans ?_
    exact BitVec.extractLsb'_append_eq_right
  · iterate 8 refine (extract_above 64 _ _ (by decide)).trans ?_
    exact BitVec.extractLsb'_append_eq_right
  · iterate 9 refine (extract_above 32 _ _ (by decide)).trans ?_
    exact BitVec.extractLsb'_append_eq_right
  · iterate 10 refine (extract_above 32 _ _ (by decide)).trans ?_
    exact BitVec.extractLsb'_eq_self

/-- The parameters of an OPEN_STREAM record are those it was written from. -/
@[simp] theorem AdminRecord.openParams_ofOpen (field : Byte) (tag : Tag) (p : OpenParams) :
    (AdminRecord.ofOpen field tag p).openParams = p := by
  have hw : (p.ring.setWidth 32).extractLsb' 0 8 = p.ring := by
    ext k hk; simp [hk]; omega
  simp only [AdminRecord.openParams, AdminRecord.ofOpen, hw, BitVec.extractLsb'_append_eq_left,
    BitVec.extractLsb'_append_eq_right]

/-- An OPEN_STREAM record sets no reserved field (R168). -/
theorem AdminRecord.wellFormed_ofOpen (field : Byte) (tag : Tag) (p : OpenParams) :
    (AdminRecord.ofOpen field tag p).wellFormed = true := by
  have hw : p.ring.setWidth 32 &&& 0xFFFFFF00#32 = 0 := by
    ext k hk
    by_cases h8 : k < 8
    · interval_cases k <;> simp
    · simp [BitVec.getLsbD_of_ge p.ring k (by omega)]
  simp [AdminRecord.wellFormed, AdminRecord.reservedZero, AdminRecord.ofOpen, AdminRecord.plain, hw]

/-- A request of codes 2 to 5 has no parameters and sets no reserved field (R168). -/
theorem AdminRecord.wellFormed_plain {code : Byte} (h : code = 2 ∨ code = 3 ∨ code = 4 ∨ code = 5) (field : Byte)
    (tag : Tag) : (AdminRecord.plain code field tag).wellFormed = true := by
  rcases h with rfl | rfl | rfl | rfl <;>
    simp [AdminRecord.wellFormed, AdminRecord.reservedZero, AdminRecord.plain]

/-! ### Admission -/

theorem streamOf_eq_some {field : Byte} {i : StreamId} (h : i.val = field.toNat) : streamOf field = some i := by
  have hlt : field.toNat < 16 := h ▸ i.isLt
  rw [streamOf, dif_pos hlt]
  exact congrArg some (Fin.ext h.symm)

/-- A stream whose claim no entry holds can be claimed (R170). -/
theorem State.unclaimed.claimFree {s : State} {i : StreamId} (h : s.unclaimed i) (code : Byte) :
    claimFree i code s.body.table = true := by
  have none_claims : (s.body.table.filter fun e => e.claim && e.stream == some i) = [] := by
    rw [List.filter_eq_nil_iff]
    intro e he hc
    obtain ⟨hclaim, hstream⟩ : e.claim = true ∧ e.stream = some i := by simpa using hc
    exact h e he hclaim hstream
  rw [Machine.claimFree, none_claims]

/-- A well-formed stream request whose claim is free is not refused (R168). -/
theorem admissionRefusal_none {r : AdminRecord} {i : StreamId} {table : List Entry} (wf : r.wellFormed = true)
    (code : isStreamCode r.code = true) (field : i.val = r.field.toNat) (free : claimFree i r.code table = true) :
    admissionRefusal r table = none := by
  simp [admissionRefusal, wf, code, streamOf_eq_some field, free]

/-! ### What requests and the actions that follow leave of the admin ring -/

@[simp] theorem State.finish_admin (id : Nat) (status : Status) (result : Nat) (s : State) :
    (s.finish id status result).body.admin = s.body.admin := rfl

@[simp] theorem Body.placeNotice_admin (i : StreamId) (closed : Bool) (b : Body) :
    (b.placeNotice i closed).admin = b.admin := rfl

theorem Body.openAt_admin (up : Bool) (i : StreamId) (st : Stream) (b : Body) :
    (b.openAt up i st).admin = b.admin := by
  cases up <;> rfl

theorem Body.completeRelease_eq (i : StreamId) (st : Stream) (b : Body) :
    b.completeRelease i st = b.completeFor i (if st.state = .aborting then 3 else 2) .ok
      (if st.state ≠ .aborting ∧ st.dir = .inbound then st.discarded else st.ring.taken) := by
  by_cases h : st.state = .aborting <;> cases hd : st.dir <;> simp [Body.completeRelease, h, hd]

theorem Body.release_admin (up : Bool) (i : StreamId) (st : Stream) (b : Body) :
    (b.release up i st).admin = b.admin := by
  cases up <;> rw [Body.release, Body.completeRelease_eq] <;> rfl

theorem Body.applyEffect_admin (env : Env) (i : StreamId) (st : Stream) (e : Effect) (b : Body) :
    (b.applyEffect env i st e).admin = b.admin := by
  cases e
  case none => rfl
  case halted => rfl
  case flushed => rfl
  case released => exact b.release_admin env.up i st

theorem Body.runStreams_admin (env : Env) (b : Body) : (b.runStreams env).admin = b.admin :=
  Body.runStreams_invariant (P := fun x => x.admin = b.admin)
    (fun x i st st' e hx _ _ => by rw [Body.act, Body.applyEffect_admin, Body.put_admin, hx]) b rfl

/-- No stream request touches the admin ring it came from. -/
theorem State.carryOutStream_admin (id : Nat) (i : StreamId) (r : AdminRecord) (s : State) :
    (s.carryOutStream id i r).body.admin = s.body.admin := by
  unfold State.carryOutStream
  repeat' split
  · unfold State.openRequest; split <;> simp [Body.openAt_admin]
  · unfold State.closeRequest; repeat' split
    all_goals simp
  · unfold State.abortRequest; split
    · exact Body.put_admin ..
    · simp
  · unfold State.flushRequest; repeat' split
    all_goals simp
  · unfold State.resumeRequest; split <;> simp
  · unfold State.watchRequest; repeat' split
    all_goals simp
  · unfold State.queryStreamRequest; split <;> rfl

/-! ### The event of a stream request -/

/-- The admin ring once its one fetch has returned and its record has been taken (R157). -/
def HostRing.handedOn (ring : HostRing) : HostRing :=
  { ring with fetches := [], taken := (ring.taken + 1) % ring.size }

/-- The record that the awaited fetch returns is handed on, alone: the ring moves on, the request is taken, and what it
sets off runs (R157). -/
theorem State.event_requestArrives {s t : State} {ring : HostRing} {r : AdminRecord} (h : s.awaitsRequest ring)
    (ht : State.takeRequest ring.taken r (s.onBody fun b => { b with admin := some ring.handedOn }) = t)
    (admin : t.body.admin = some ring.handedOn) : s.event (State.requestArrives r) = t.followed := by
  obtain ⟨fn, ha, -, pending, fetches, returned⟩ := h
  have alone : s.requestArrives r = t.onBody (Body.runStreams t.env) := by
    have next : (ring.fetchReturned 0 r.bits).next? = some (r.bits, ring.handedOn) :=
      HostRing.next_of_one pending fetches returned r.bits
    have quiet : ring.handedOn.next? = none := by simp [HostRing.next?, HostRing.handedOn, returned]
    have ran : (t.onBody (Body.runStreams t.env)).body.admin = some ring.handedOn := by
      rw [State.onBody_body, Body.runStreams_admin, admin]
    have taken : (ring.fetchReturned 0 r.bits).taken = ring.taken := by simp [HostRing.fetchReturned, fetches]
    have step := State.handOnRequests_of_next
      (s := s.onBody fun b => { b with admin := some (ring.fetchReturned 0 r.bits) }) rfl next 7
    have ht' : State.takeRequest ring.taken r (s.onBody ((fun b => { b with admin := some ring.handedOn }) ∘
      fun b => { b with admin := some (ring.fetchReturned 0 r.bits) })) = t := ht
    rw [taken, AdminRecord.read_bits, State.onBody_onBody, ht', State.handOnRequests_of_next_none ran quiet] at step
    simp only [State.requestArrives, ha, fetches, List.findIdx?_cons, State.adminFetchEnds, fn]
    simpa using step
  have running : s.fn ≠ .faulted := by rw [fn]; decide
  rw [State.event_eq running, alone, State.followed]

/-- An admitted stream request is carried out on the part that has taken it, and what follows from it runs. -/
theorem State.event_streamRequest {s : State} {ring : HostRing} {r : AdminRecord} {i : StreamId}
    (h : s.awaitsRequest ring) (wf : r.wellFormed = true) (code : isStreamCode r.code = true)
    (field : i.val = r.field.toNat) (free : claimFree i r.code s.body.table = true) :
    s.event (State.requestArrives r) = ((s.withRequest ring r true).carryOutStream s.body.nextId i r).followed := by
  refine State.event_requestArrives h ?_ (State.carryOutStream_admin _ _ _ _)
  simp [State.takeRequest, admissionRefusal_none wf code field free, code, streamOf_eq_some field]
  rfl

end Sys2Proof.Machine
end

section
/-! SUPPORT. CLOSE_STREAM, FLUSH_STREAM, ABORT_STREAM and RESUME_STREAM (R17 to R25). -/

namespace Sys2Proof.Machine

open Sys2Proof Host

/-! ### The commands as events -/

/-- A request of codes 2 to 5 for a stream is carried out on the part that has taken it. -/
theorem State.event_plainRequest {s : State} {ring : HostRing} {stream : Byte} {i : StreamId} {code : Byte} {tag : Tag}
    (h : s.awaitsRequest ring) (hc : code = 2 ∨ code = 3 ∨ code = 4 ∨ code = 5) (field : i.val = stream.toNat)
    (free : claimFree i code s.body.table = true) :
    s.event (State.requestArrives (AdminRecord.plain code stream tag)) =
      ((s.withRequest ring (AdminRecord.plain code stream tag) true).carryOutStream s.body.nextId i
        (AdminRecord.plain code stream tag)).followed :=
  State.event_streamRequest h (AdminRecord.wellFormed_plain hc stream tag)
    (by rcases hc with rfl | rfl | rfl | rfl <;> rfl) field free

theorem exec_closeStream {s : State} {ring : HostRing} {stream : Byte} {i : StreamId} (tag : Tag)
    (h : s.awaitsRequest ring) (field : i.val = stream.toNat) (free : s.unclaimed i) :
    exec (.closeStream tag stream) s =
      .next ((s.withRequest ring (AdminRecord.plain 2 stream tag) true).closeRequest s.body.nextId i).followed :=
  congrArg Outcome.next (State.event_plainRequest h (by simp) field (free.claimFree 2))

theorem exec_flushStream {s : State} {ring : HostRing} {stream : Byte} {i : StreamId} (tag : Tag)
    (h : s.awaitsRequest ring) (field : i.val = stream.toNat) (free : s.unclaimed i) :
    exec (.flushStream tag stream) s =
      .next ((s.withRequest ring (AdminRecord.plain 4 stream tag) true).flushRequest s.body.nextId i).followed :=
  congrArg Outcome.next (State.event_plainRequest h (by simp) field (free.claimFree 4))

theorem exec_abortStream {s : State} {ring : HostRing} {stream : Byte} {i : StreamId} (tag : Tag)
    (h : s.awaitsRequest ring) (field : i.val = stream.toNat) (free : claimFree i 3 s.body.table = true) :
    exec (.abortStream tag stream) s =
      .next ((s.withRequest ring (AdminRecord.plain 3 stream tag) true).abortRequest s.body.nextId i).followed :=
  congrArg Outcome.next (State.event_plainRequest h (by simp) field free)

theorem exec_resumeStream {s : State} {ring : HostRing} {stream : Byte} {i : StreamId} (tag : Tag)
    (h : s.awaitsRequest ring) (field : i.val = stream.toNat) (free : s.unclaimed i) :
    exec (.resumeStream tag stream) s =
      .next ((s.withRequest ring (AdminRecord.plain 5 stream tag) true).resumeRequest s.body.nextId i).followed :=
  congrArg Outcome.next (State.event_plainRequest h (by simp) field (free.claimFree 5))

@[simp] theorem State.withRequest_stream (s : State) (ring : HostRing) (r : AdminRecord) (a : Bool) (i : StreamId) :
    (s.withRequest ring r a).body.stream i = s.body.stream i := rfl

@[simp] theorem State.withRequest_isUp (s : State) (ring : HostRing) (r : AdminRecord) (a : Bool) :
    (s.withRequest ring r a).isUp = s.isUp := rfl

/-! ### CLOSE_STREAM and FLUSH_STREAM -/

theorem State.closeRequest_accepted {s : State} {i : StreamId} {st : Stream} (id : Nat)
    (h : s.body.stream i = some st) (state : st.state = .active ∨ st.state = .halted) :
    s.closeRequest id i = s.withStream i st st.beginClose := by
  simp only [State.closeRequest, h, if_pos state, State.withStream]

theorem State.flushRequest_accepted {s : State} {i : StreamId} {st : Stream} (id : Nat)
    (h : s.body.stream i = some st) (state : st.state = .active ∨ st.state = .halted) :
    s.flushRequest id i = s.withStream i st st.beginFlush := by
  simp only [State.flushRequest, h, if_pos state, State.withStream]

/-- CLOSED and the states but ACTIVE and HALTED refuse a close. -/
theorem State.closeRequest_refused {s : State} {i : StreamId} (id : Nat)
    (h : ∀ st, s.body.stream i = some st → st.state ≠ .active ∧ st.state ≠ .halted) :
    s.closeRequest id i = s.finish id .wrongState 0 := by
  unfold State.closeRequest
  split
  · next st hs => rw [if_neg (not_or.mpr (h st hs))]
  · rfl

/-- CLOSED and the states but ACTIVE and HALTED refuse a flush. -/
theorem State.flushRequest_refused {s : State} {i : StreamId} (id : Nat)
    (h : ∀ st, s.body.stream i = some st → st.state ≠ .active ∧ st.state ≠ .halted) :
    s.flushRequest id i = s.finish id .wrongState 0 := by
  unfold State.flushRequest
  split
  · next st hs => rw [if_neg (not_or.mpr (h st hs))]
  · rfl

/-- A HELD packet counts with all its bytes (2.5). -/
theorem Buffer.occupancy_of_not_draining {b : Buffer} (h : b.isDraining = false) : b.occupancy = b.count := by
  cases b <;> simp_all [Buffer.occupancy, Buffer.isDraining]

theorem map_occupancy_eq_count {p : Buffer → Bool} (h : ∀ b, p b = true → b.isDraining = false) (bs : List Buffer) :
    (bs.filter p).map Buffer.occupancy = (bs.filter p).map Buffer.count :=
  List.map_congr_left fun b hb => Buffer.occupancy_of_not_draining (h b (List.of_mem_filter hb))

/-- A queue position beyond the buffers is FREE. -/
theorem Stream.buffer_mem_or_free (st : Stream) (k : Nat) : st.buffer k ∈ st.buffers ∨ st.buffer k = .free := by
  rw [Stream.buffer, List.getD_eq_getElem?_getD]
  cases h : st.buffers[k]? with
  | none => exact .inr rfl
  | some b => exact .inl (List.mem_of_getElem? h)

/-- With no buffer picked a discard changes nothing. -/
theorem Stream.discard_of_none {p : Buffer → Bool} {st : Stream} (hfree : p .free = false)
    (h : st.buffers.any p = false) : st.discard p = st := by
  have none_picked : ∀ b ∈ st.buffers, p b = false := by simpa using h
  have buffers : (st.buffers.map fun b => if p b then .free else b) = st.buffers :=
    (List.map_congr_left fun b hb => by simp [none_picked b hb]).trans (List.map_id _)
  have filtered : st.buffers.filter p = [] := by simpa using none_picked
  have queue : (st.queue.filter fun k => !p (st.buffer k)) = st.queue := by
    rw [List.filter_eq_self]
    intro k _
    rcases st.buffer_mem_or_free k with hb | hb
    · simp [none_picked _ hb]
    · simp [hb, hfree]
  simp [Stream.discard, buffers, filtered, queue]

/-- A flush's discard is a discard, with the gap pending flag set if it found a packet (R19, R76). -/
theorem Stream.flushDiscard_eq {p : Buffer → Bool} (hfree : p .free = false) (st : Stream) :
    st.flushDiscard p = { st.discard p with seq := if st.buffers.any p then st.setGap.seq else st.seq } := by
  unfold Stream.flushDiscard
  by_cases h : st.buffers.any p = true
  · rw [if_pos h, if_pos h]
    unfold Stream.setGap
    cases hs : st.seq <;> simp [Stream.discard, hs]
  · rw [if_neg h, if_neg h, Stream.discard_of_none hfree (by simpa using h)]

/-- What a flush does at once to an IN stream (R19). -/
theorem Stream.beginFlush_inbound {st : Stream} (dir : st.dir = .inbound) :
    st.beginFlush = { st with
      state := .flushing, stage := .waiting, request := some .flush
      discarded := ((st.buffers.filter Buffer.isHeld).map Buffer.count).sum
      buffers := st.buffers.map fun b => if b.isHeld then .free else b
      queue := st.queue.filter fun k => !(st.buffer k).isHeld
      seq := if st.buffers.any Buffer.isHeld then
          (match st.seq with
            | .scheduledIn expected _ first => .scheduledIn expected true first
            | q => q)
        else st.seq } := by
  have held_counts : ∀ b : Buffer, b.isHeld = true → b.isDraining = false := by
    intro b hb; cases b <;> simp_all [Buffer.isHeld, Buffer.isDraining]
  simp only [Stream.beginFlush, dir, Stream.flushDiscard_eq (p := Buffer.isHeld) rfl, Stream.discard,
    map_occupancy_eq_count held_counts, Nat.zero_add]
  cases st.seq <;> simp [Stream.setGap, Stream.buffer]

/-- Settles O16: each state either accepts both requests or refuses both. -/
theorem closeAndFlushBegin : Obligations.CloseAndFlushBegin := by
  intro s ring tag stream i awaits field free
  refine ⟨fun st opened state => ⟨?_, fun dir => ?_, fun dir => ?_⟩, fun other => ⟨?_, ?_⟩⟩
  · rw [State.carriesOut, exec_closeStream tag awaits field free,
      State.closeRequest_accepted (s := s.withRequest ring _ true) _ opened state, Stream.beginClose]
  · rw [State.carriesOut, exec_flushStream tag awaits field free,
      State.flushRequest_accepted (s := s.withRequest ring _ true) _ opened state]
    simp only [Stream.beginFlush, dir]
  · rw [State.carriesOut, exec_flushStream tag awaits field free,
      State.flushRequest_accepted (s := s.withRequest ring _ true) _ opened state]
    exact congrArg (fun new => Outcome.next (State.withStream _ i st new).followed) (Stream.beginFlush_inbound dir)
  · rw [State.completesWith, exec_closeStream tag awaits field free,
      State.closeRequest_refused (s := s.withRequest ring _ true) _ other]
  · rw [State.completesWith, exec_flushStream tag awaits field free,
      State.flushRequest_refused (s := s.withRequest ring _ true) _ other]

/-! ### ABORT_STREAM -/

theorem State.abortRequest_closed {s : State} {i : StreamId} (id : Nat) (h : s.body.stream i = none) :
    s.abortRequest id i = s.finish id .wrongState 0 := by
  simp only [State.abortRequest, h]

theorem Body.completeFor_eq (i : StreamId) (code : Byte) (status : Status) (result : Nat) (b : Body) :
    b.completeFor i code status result = { b with
      table := b.table.map fun e =>
        if e.held = none ∧ e.stream = some i ∧ e.code = code then e.complete status result else e } := by
  simp only [Body.completeFor, Body.completeIf, Bool.and_eq_true, beq_iff_eq]

@[simp] theorem Entry.complete_held_ne_none (status : Status) (result : Nat) (e : Entry) :
    (e.complete status result).held ≠ none := by simp [Entry.complete]

/-- What an ABORT_STREAM overtakes, it overtakes in one round over the table: an entry has one code. -/
theorem Body.overtake_eq (i : StreamId) (b : Body) :
    (b.completeFor i 2 .overtaken 0).completeFor i 4 .overtaken 0 = { b with
      table := b.table.map fun e =>
        if e.held = none ∧ e.stream = some i ∧ (e.code = 2 ∨ e.code = 4) then e.complete .overtaken 0 else e } := by
  simp only [Body.completeFor_eq, List.map_map]
  congr 1
  refine List.map_congr_left fun e _ => ?_
  by_cases close : e.held = none ∧ e.stream = some i ∧ e.code = 2
  · simp only [Function.comp_apply, if_pos close, Entry.complete_held_ne_none, false_and, if_false]
    rw [if_pos ⟨close.1, close.2.1, .inl close.2.2⟩]
  · simp only [Function.comp_apply, if_neg close]
    refine if_congr ⟨fun ⟨held, mine, code⟩ => ⟨held, mine, .inr code⟩, fun ⟨held, mine, code⟩ => ?_⟩ rfl rfl
    exact ⟨held, mine, code.resolve_left fun two => close ⟨held, mine, two⟩⟩

theorem State.abortRequest_open {s : State} {i : StreamId} {st : Stream} (id : Nat) (h : s.body.stream i = some st) :
    s.abortRequest id i = (s.withStream i st st.beginAbort).onBody fun b => { b with
      table := b.table.map fun e =>
        if e.held = none ∧ e.stream = some i ∧ (e.code = 2 ∨ e.code = 4) then e.complete .overtaken 0 else e } := by
  simp only [State.abortRequest, h, Body.overtake_eq]
  rfl

@[simp] theorem Stream.abandon_bad (st : Stream) : st.abandon.bad = st.bad := by
  rcases st.abandon_cases with ⟨-, h⟩ | ⟨-, h⟩ <;> simp [h, Stream.discard]
@[simp] theorem Stream.abandon_reads (st : Stream) : st.abandon.reads = st.reads := by
  rcases st.abandon_cases with ⟨-, h⟩ | ⟨-, h⟩ <;> simp [h, Stream.discard]
@[simp] theorem Stream.abandon_writes (st : Stream) : st.abandon.writes = st.writes := by
  rcases st.abandon_cases with ⟨-, h⟩ | ⟨-, h⟩ <;> simp [h, Stream.discard]

/-- Settles O17: the stream becomes what `Stream.beginAbort` makes of it. -/
theorem abortStreamOvertakes : Obligations.AbortStreamOvertakes := by
  intro s ring tag stream i awaits field free
  refine ⟨fun closed => ?_, fun st opened => ?_⟩
  · rw [State.completesWith, exec_abortStream tag awaits field free,
      State.abortRequest_closed (s := s.withRequest ring _ true) _ closed]
  · refine ⟨st.beginAbort, rfl, rfl, rfl, st.abandon_sentIndex, fun unsent => ?_, fun next flight n sent seq => ?_,
      fun k unsent => st.abandon_buffer unsent, st.abandon_sends, st.abandon_receives, st.abandon_ring, st.abandon_held,
      st.abandon_bad, st.abandon_reads, st.abandon_writes, st.abandon_cause, ?_⟩
    · rw [Stream.beginAbort, Stream.abandon_of_none unsent]
      exact ⟨rfl, rfl, rfl⟩
    · rcases st.abandon_cases with ⟨unsent, -⟩ | ⟨-, gone⟩
      · exact absurd unsent sent
      · rw [Stream.beginAbort, gone]
        simp [seq, SeqState.clearFlight]
    · rw [State.carriesOut, exec_abortStream tag awaits field free,
        State.abortRequest_open (s := s.withRequest ring _ true) _ opened]

/-! ### RESUME_STREAM -/

/-- A stream that needs no reservation needs no room for one (R7). -/
theorem reservation_refused_iff (st : Stream) (s : State) :
    (st.isScheduledOut && !s.reservationFits st) = true ↔
      ¬(st.cls = .scheduled → st.dir = .outbound →
        s.body.reservedSum + st.perCycle * (st.maxLen + 12) ≤ s.ce.inForce.reservable) := by
  by_cases fits : s.body.reservedSum + st.perCycle * (st.maxLen + 12) ≤ s.ce.inForce.reservable <;>
    simp [Stream.isScheduledOut, State.reservationFits, Stream.reservation, fits]

theorem State.resumeRequest_refused {s : State} {i : StreamId} {status : Status} (id : Nat)
    (h : s.resumeRefusal i = some status) : s.resumeRequest id i = s.finish id status 0 := by
  simp only [State.resumeRequest, h]

theorem State.resumeRequest_accepted {s : State} {i : StreamId} {st : Stream} (id : Nat)
    (opened : s.body.stream i = some st) (h : s.resumeRefusal i = none) :
    s.resumeRequest id i = (s.withStream i st st.resumed).finish id .ok 0 := by
  simp only [State.resumeRequest, h, State.onBody, Body.modify_some opened, State.withStream]

/-- Settles O18: each check is reached only once those before it have passed. -/
theorem resumeStreamChecksInOrder : Obligations.ResumeStreamChecksInOrder := by
  intro s ring tag stream i awaits field free c r refused
  have refuses : ∀ status, (s.withRequest ring r true).resumeRefusal i = some status → refused status := by
    intro status h
    show s.completesWith c ring r true status 0
    rw [State.completesWith, exec_resumeStream tag awaits field free,
      State.resumeRequest_refused (s := s.withRequest ring _ true) _ h]
  refine ⟨fun closed => refuses _ ?_, fun st opened => ?_⟩
  · simp [State.resumeRefusal, closed]
  intro allowed fits
  have refusal : (s.withRequest ring r true).resumeRefusal i =
      if st.state ≠ .halted then some .wrongState else if s.bp.link ≠ .up then some .linkNotUp
      else if ¬allowed then some .profileMismatch else if ¬fits then some .noBandwidth else none := by
    have noRoom : (st.isScheduledOut && !(s.withRequest ring r true).reservationFits st) = true ↔ ¬fits :=
      reservation_refused_iff st (s.withRequest ring r true)
    simp only [State.resumeRefusal, State.withRequest_stream, opened, noRoom]
    simp [allowed, ← State.isUp_false_iff]
  refine ⟨fun h => refuses _ ?_, fun h up => refuses _ ?_, fun h up deny => refuses _ ?_,
    fun h up allow full => refuses _ ?_, fun h up allow room => ?_⟩
  · rw [refusal, if_pos h]
  · rw [refusal, if_neg (not_not.mpr h), if_pos up]
  · rw [refusal, if_neg (not_not.mpr h), if_neg (not_not.mpr up), if_pos deny]
  · rw [refusal, if_neg (not_not.mpr h), if_neg (not_not.mpr up), if_neg (not_not.mpr allow), if_pos full]
  · have accepted : (s.withRequest ring r true).resumeRefusal i = none := by
      rw [refusal, if_neg (not_not.mpr h), if_neg (not_not.mpr up), if_neg (not_not.mpr allow),
        if_neg (not_not.mpr room)]
    rw [State.carriesOut, exec_resumeStream tag awaits field free,
      State.resumeRequest_accepted (s := s.withRequest ring _ true) _ opened accepted, Stream.resumed]

end Sys2Proof.Machine
end

section
/-! SUPPORT. How a halt, a flush, a close and an abort wind to their end (R10 to R12, R18 to R24): what `Stream.wind`
does in each state and stage, said once. -/

namespace Sys2Proof.Machine

open Sys2Proof

/-! ### The waits -/

/-- No read is in flight when every read has returned its data. -/
theorem Stream.readsInFlight_eq_zero_iff (st : Stream) : st.readsInFlight = 0 ↔ ¬∃ r ∈ st.reads, r.data = none := by
  simp [Stream.readsInFlight, List.countP_eq_zero, Option.isNone_iff_eq_none]

/-- Only a best-effort OUT stream with the in-flight marker set awaits an answer (1.1). -/
theorem Stream.awaitsAnswer_iff (st : Stream) :
    st.awaitsAnswer = true ↔ st.sentIndex ≠ none ∧ ∃ next n, st.seq = .bestEffortOut next true n := by
  rw [Stream.awaitsAnswer, Bool.and_eq_true, Option.isSome_iff_ne_none]
  cases st.seq <;> simp [SeqState.inFlight]

theorem Stream.waitsEnded_iff (st : Stream) :
    st.waitsEnded = true ↔ st.ring.fetches = [] ∧ (¬∃ r ∈ st.reads, r.data = none) ∧ st.writes = [] ∧
      ¬(st.sentIndex ≠ none ∧ ∃ next n, st.seq = .bestEffortOut next true n) := by
  rw [← st.readsInFlight_eq_zero_iff, ← st.awaitsAnswer_iff]
  simp [Stream.waitsEnded, and_assoc]

theorem Stream.quietRing_iff (st : Stream) :
    st.quietRing = true ↔ st.ring.fetches = [] ∧ st.ring.returned = [] ∧ st.held = none := by
  simp [Stream.quietRing, and_assoc]

theorem Stream.holdsFlushed_iff (st : Stream) :
    st.holdsFlushed = true ↔ ∃ h, st.held = some h ∧ h.completion.status = .flushed := by
  cases h : st.held <;> simp [Stream.holdsFlushed, h]

theorem Buffer.isFree_iff (b : Buffer) : b.isFree = true ↔ b = .free := by
  cases b <;> simp [Buffer.isFree]

theorem Buffer.isDraining_of_isOutbound {b : Buffer} (h : b.isOutbound = true) : b.isDraining = false := by
  cases b <;> simp_all [Buffer.isOutbound, Buffer.isFilling, Buffer.isCommitted, Buffer.isSent, Buffer.isDraining]

/-- A buffer in none of the IN states is in an OUT state or FREE (2.2). -/
theorem Buffer.isOutbound_or_isFree (b : Buffer) (held : b.isHeld = false) (receiving : b.isReceiving = false)
    (draining : b.isDraining = false) : b.isOutbound = true ∨ b = .free := by
  cases b <;> simp_all [Buffer.isOutbound, Buffer.isFilling, Buffer.isCommitted, Buffer.isSent, Buffer.isHeld,
    Buffer.isReceiving, Buffer.isDraining]

/-! ### The discards -/

/-- The stream `st'` is `st` after the discard of the buffers that `p` picks, come to a stage of the same work. -/
structure Stream.Emptied (p : Buffer → Bool) (stage : Stage) (st st' : Stream) : Prop where
  stage_eq : st'.stage = stage
  state_eq : st'.state = st.state
  request_eq : st'.request = st.request
  discarded_eq : st'.discarded = st.discarded + ((st.buffers.filter p).map Buffer.occupancy).sum
  sends_eq : st'.sends = st.sends
  receives_length : st'.receives.length = st.receives.length
  buffers_length : st'.buffers.length = st.buffers.length
  picked : ∀ k, p (st.buffer k) = true → st'.buffer k = .free
  others : ∀ k, p (st.buffer k) = false → (st'.buffer k).count = (st.buffer k).count

theorem Stream.discard_emptied (p : Buffer → Bool) (stage : Stage) (st : Stream) :
    Stream.Emptied p stage st { st.discard p with stage := stage } where
  stage_eq := rfl
  state_eq := rfl
  request_eq := rfl
  discarded_eq := rfl
  sends_eq := rfl
  receives_length := rfl
  buffers_length := by simp
  picked k h := (st.discard_buffer p k).trans (if_pos h)
  others k h := congrArg Buffer.count ((st.discard_buffer p k).trans (if_neg (by simp [h])))

theorem Stream.discard_emptied_reads (p : Buffer → Bool) (stage : Stage) (st : Stream) :
    Stream.Emptied p stage st { st.discard p with reads := [], stage := stage } :=
  { st.discard_emptied p stage with }

/-- An IN stream's issued counts are brought back buffer by buffer; only a DRAINING one has any (R80). -/
theorem Stream.bringBack_buffer (st : Stream) (k : Nat) : st.bringBack.buffer k = match st.buffer k with
    | .draining data mark value cycle gap written _ => .draining data mark value cycle gap written written
    | b => b := by
  simp only [Stream.buffer, Stream.bringBack, List.getD_eq_getElem?_getD, List.getElem?_map]
  cases st.buffers[k]? with
  | none => rfl
  | some b => cases b <;> rfl

theorem Stream.bringBack_count (st : Stream) (k : Nat) : (st.bringBack.buffer k).count = (st.buffer k).count := by
  rw [Stream.bringBack_buffer]
  cases st.buffer k <;> rfl

theorem Stream.flushDiscard_buffer {p : Buffer → Bool} (hfree : p .free = false) (st : Stream) (k : Nat) :
    (st.flushDiscard p).buffer k = if p (st.buffer k) then .free else st.buffer k := by
  rw [Stream.flushDiscard_eq hfree]
  exact st.discard_buffer p k

/-- The discard of a flush that finds no write in flight: the DRAINING packet goes, and the counts are brought back. -/
theorem Stream.flushDiscard_emptied (st : Stream) : Stream.Emptied Buffer.isDraining .leaving st
    { (st.flushDiscard Buffer.isDraining).bringBack with stage := .leaving } where
  stage_eq := rfl
  state_eq := by rw [Stream.flushDiscard_eq rfl]; rfl
  request_eq := by rw [Stream.flushDiscard_eq rfl]; rfl
  discarded_eq := by rw [Stream.flushDiscard_eq rfl]; rfl
  sends_eq := by rw [Stream.flushDiscard_eq rfl]; rfl
  receives_length := by rw [Stream.flushDiscard_eq rfl]; simp [Stream.bringBack, Stream.discard]
  buffers_length := by rw [Stream.flushDiscard_eq rfl]; simp [Stream.bringBack, Stream.discard]
  picked k h := by
    have free : (st.flushDiscard Buffer.isDraining).buffer k = .free := by
      rw [Stream.flushDiscard_buffer rfl, if_pos h]
    exact (Stream.bringBack_buffer _ k).trans (by rw [free])
  others k h := by
    refine (Stream.bringBack_count _ k).trans ?_
    rw [Stream.flushDiscard_buffer rfl, if_neg (by simp [h])]

/-! ### The completions, one at a time -/

/-- A stage that completes records or waits for the last completion to be written. -/
def Stage.completing : Stage → Prop
  | .completeHead _ => True
  | .completeAll _ => True
  | .awaitWrite => True
  | _ => False

/-- A halt, a flush, an abort and the close of an IN stream complete records in stages. -/
def Stream.completesInStages (st : Stream) : Prop :=
  st.state = .halting ∨ st.state = .flushing ∨ st.state = .aborting ∨ (st.state = .closing ∧ st.dir = .inbound)

/-- In these stages they do the same. -/
theorem Stream.wind_completing {st : Stream} (i : StreamId) (stage : st.stage.completing)
    (state : st.completesInStages) : st.wind i = (st.windCompletions i).map fun x => (x, .none) := by
  rcases state with state | state | state | ⟨state, dir⟩ <;> cases h : st.stage <;>
    simp_all [Stage.completing, Stream.wind, Stream.windHalting, Stream.windFlushing, Stream.windClosing,
      Stream.windAborting]

/-- The next completion waits until the one before has been written (R12). -/
theorem Stream.windCompletions_held {st : Stream} {h : Held} (i : StreamId) (held : st.held = some h) :
    st.windCompletions i = none := by
  simp [Stream.windCompletions, held]

theorem Stream.windCompletions_all {st : Stream} {status : Status} (i : StreamId) (held : st.held = none)
    (stage : st.stage = .completeAll status) : st.windCompletions i = some (st.completeNext i status) := by
  simp [Stream.windCompletions, held, stage]

theorem Stream.windCompletions_head {st : Stream} {status : Status} {e : ReceiveEntry} {es : List ReceiveEntry}
    (i : StreamId) (held : st.held = none) (stage : st.stage = .completeHead status)
    (receives : st.receives = e :: es) :
    st.windCompletions i = some ({ st with
      receives := es, stage := .awaitWrite
      request := if status = Status.flushed then some .flushRest else st.request }.hold
        (receiveCompletion i e status)) := by
  simp [Stream.windCompletions, held, stage, Stream.completeHeadOnly, receives]

theorem Stream.windCompletions_written {st : Stream} (i : StreamId) (held : st.held = none)
    (stage : st.stage = .awaitWrite) : st.windCompletions i = some { st with stage := .finished } := by
  simp [Stream.windCompletions, held, stage]

theorem Stream.completeNext_send {st : Stream} {e : SendEntry} {es : List SendEntry} (i : StreamId) (status : Status)
    (dir : st.dir = .outbound) (sends : st.sends = e :: es) :
    st.completeNext i status = { st with sends := es }.hold (sendCompletion i e (st.entryStatus e status)) := by
  simp [Stream.completeNext, dir, sends]

theorem Stream.completeNext_receive {st : Stream} {e : ReceiveEntry} {es : List ReceiveEntry} (i : StreamId)
    (status : Status) (dir : st.dir = .inbound) (receives : st.receives = e :: es) :
    st.completeNext i status = { st with receives := es }.hold (receiveCompletion i e status) := by
  simp [Stream.completeNext, dir, receives]

/-- The stream has no record of its direction left. -/
def Stream.noRecords (st : Stream) : Prop :=
  match st.dir with
  | .outbound => st.sends = []
  | .inbound => st.receives = []

theorem Stream.noRecords_of_nil (st : Stream) (sends : st.sends = []) (receives : st.receives = []) : st.noRecords := by
  unfold Stream.noRecords
  split
  · exact sends
  · exact receives

theorem Stream.completeNext_last {st : Stream} (i : StreamId) (status : Status) (none_left : st.noRecords) :
    st.completeNext i status = match st.bad with
      | some b =>
        if b.formed then { st with stage := .finished }
        else { st with bad := some { b with formed := true } }.hold
          (badCompletion i st.dir b (if st.state = StreamState.halting then .badRecord else .aborted))
      | none => { st with stage := .finished } := by
  unfold Stream.noRecords at none_left
  cases dir : st.dir <;> simp only [dir] at none_left <;> simp only [Stream.completeNext, dir, none_left] <;> rfl

theorem Stream.completeNext_bad {st : Stream} {b : BadRecord} (i : StreamId) (status : Status)
    (none_left : st.noRecords) (bad : st.bad = some b) (formed : b.formed = false) :
    st.completeNext i status = { st with bad := some { b with formed := true } }.hold
      (badCompletion i st.dir b (if st.state = StreamState.halting then .badRecord else .aborted)) := by
  simp [Stream.completeNext_last i status none_left, bad, formed]

theorem Stream.completeNext_finished {st : Stream} (i : StreamId) (status : Status) (none_left : st.noRecords)
    (bad : ∀ b, st.bad = some b → b.formed = true) : st.completeNext i status = { st with stage := .finished } := by
  rw [Stream.completeNext_last i status none_left]
  cases h : st.bad with
  | none => rfl
  | some b => simp [bad b h]

/-- What R12 and R53 complete a record with beside the status of the halt cause. -/
theorem Stream.entryStatus_halting {st : Stream} {cause : HaltCause} (e : SendEntry) (status : Status)
    (state : st.state = .halting) (caused : st.cause = some cause) :
    st.entryStatus e status =
      if cause = .memoryError then (if st.failed = some e.position then .memoryError else status)
      else if st.failed = none then status else .aborted := by
  cases failed : st.failed <;> simp [Stream.entryStatus, state, caused, failed]

theorem Stream.entryStatus_of_ne {st : Stream} (e : SendEntry) (status : Status) (state : st.state ≠ .halting) :
    st.entryStatus e status = status := if_neg state

/-! ### HALTING -/

theorem Stream.wind_halting_waits {st : Stream} (i : StreamId) (state : st.state = .halting)
    (stage : st.stage = .waiting) (waits : st.waitsEnded = false) : st.wind i = none := by
  simp [Stream.wind, state, Stream.windHalting, stage, waits]

theorem Stream.wind_halting_waited_outbound {st : Stream} (i : StreamId) (state : st.state = .halting)
    (stage : st.stage = .waiting) (ended : st.waitsEnded = true) (dir : st.dir = .outbound) :
    st.wind i = some ({ st.discard Buffer.isOutbound with reads := [], stage := .leaving }, .none) := by
  simp only [Stream.wind, state, Stream.windHalting, stage, ended, dir, if_true]

theorem Stream.wind_halting_waited_inbound {st : Stream} (i : StreamId) (state : st.state = .halting)
    (stage : st.stage = .waiting) (ended : st.waitsEnded = true) (dir : st.dir = .inbound) :
    st.wind i = some ({ st.bringBack with stage := .leaving }, .none) := by
  simp only [Stream.wind, state, Stream.windHalting, stage, ended, dir, if_true]

theorem Stream.wind_halting_leaving {st : Stream} (i : StreamId) (state : st.state = .halting)
    (stage : st.stage = .leaving) (ended : st.headEnded = false) :
    st.wind i = some ({ st with stage := st.haltStage }, .none) := by
  simp [Stream.wind, state, Stream.windHalting, stage, ended]

/-- A halt that interrupted nothing ends HALTED. -/
theorem Stream.wind_halting_finished {st : Stream} (i : StreamId) (state : st.state = .halting)
    (stage : st.stage = .finished) (request : st.request = none) :
    st.wind i = some ({ st with state := .halted, stage := .idle, failed := none }, .none) := by
  simp [Stream.wind, state, Stream.windHalting, stage, request]

/-- Settles O30: the stages of a halt in their order. -/
theorem haltedStreamsCompleteTheirRecords : Obligations.HaltedStreamsCompleteTheirRecords := by
  intro i st cause state caused status formed awaited
  have completing : ∀ s, st.stage = s → s.completing → st.wind i = (st.windCompletions i).map fun x => (x, .none) :=
    fun s stage h => Stream.wind_completing i (stage ▸ h) (.inl state)
  have status_eq : (st.cause.map HaltCause.status).getD .aborted = status := by
    rw [caused]; cases cause <;> rfl
  refine ⟨fun stage => ⟨fun waits => ?_, fun fetches reads writes answered => ?_⟩,
    fun held stage dir => ⟨fun e es sends => ?_, fun b sends bad fresh => ?_, fun sends bad => ?_⟩,
    fun held stage dir => ⟨fun e es receives => ?_, fun b receives bad fresh => ?_, fun receives bad => ?_⟩,
    fun s b held stage sends receives bad done => ?_, fun stage ended dir => ?_, fun stage ended dir => ?_,
    fun e es s held stage other receives => ?_, fun held stage => ?_, fun h held stage => ?_,
    fun stage request => Stream.wind_halting_finished i state stage request⟩
  · have : st.waitsEnded = false := by
      rw [Bool.eq_false_iff, Ne, Stream.waitsEnded_iff]
      rintro ⟨fetches, reads, writes, answered⟩
      exact waits.elim (· fetches) fun h => h.elim reads fun h => h.elim (· writes) answered
    exact Stream.wind_halting_waits i state stage this
  · have ended : st.waitsEnded = true :=
      st.waitsEnded_iff.mpr ⟨fetches, fun ⟨r, hr, h⟩ => reads r hr h, writes, answered⟩
    cases dir : st.dir with
    | outbound =>
      refine ⟨_, Stream.wind_halting_waited_outbound i state stage ended dir, rfl, rfl,
        fun _ => ⟨rfl, rfl, ?_, fun b _ held receiving draining k hk => ?_⟩, nofun⟩
      · exact congrArg (fun counts => st.discarded + List.sum counts)
          (map_occupancy_eq_count (fun _ => Buffer.isDraining_of_isOutbound) st.buffers)
      · have isb : st.buffer k = b := by rw [Stream.buffer, List.getD_eq_getElem?_getD, hk, Option.getD_some]
        refine (st.discard_buffer Buffer.isOutbound k).trans ?_
        rw [isb]
        rcases b.isOutbound_or_isFree held receiving draining with out | rfl
        · rw [if_pos out]
        · rfl
    | inbound =>
      exact ⟨_, Stream.wind_halting_waited_inbound i state stage ended dir, rfl, rfl, nofun,
        fun _ => ⟨rfl, rfl, rfl, rfl, fun k => st.bringBack_buffer k⟩⟩
  · rw [completing _ stage trivial, Stream.windCompletions_all i held stage, Stream.completeNext_send i _ dir sends,
      Stream.entryStatus_halting e _ state caused]
    rfl
  · rw [completing _ stage trivial, Stream.windCompletions_all i held stage,
      Stream.completeNext_bad i _ (by simpa [Stream.noRecords, dir] using sends) bad fresh, dir, if_pos state]
    rfl
  · rw [completing _ stage trivial, Stream.windCompletions_all i held stage,
      Stream.completeNext_finished i _ (by simpa [Stream.noRecords, dir] using sends) (by simp [bad])]
    rfl
  · rw [completing _ stage trivial, Stream.windCompletions_all i held stage,
      Stream.completeNext_receive i _ dir receives]
    rfl
  · rw [completing _ stage trivial, Stream.windCompletions_all i held stage,
      Stream.completeNext_bad i _ (by simpa [Stream.noRecords, dir] using receives) bad fresh, dir, if_pos state]
    rfl
  · rw [completing _ stage trivial, Stream.windCompletions_all i held stage,
      Stream.completeNext_finished i _ (by simpa [Stream.noRecords, dir] using receives) (by simp [bad])]
    rfl
  · rw [completing _ stage trivial, Stream.windCompletions_all i held stage,
      Stream.completeNext_finished i _ (st.noRecords_of_nil sends receives) (by simp [bad, done])]
    rfl
  · rw [Stream.wind_halting_leaving i state stage ended]
    simp only [Stream.haltStage, dir, status_eq, List.isEmpty_iff]
  · rw [Stream.wind_halting_leaving i state stage ended]
    simp only [Stream.haltStage, dir, status_eq]
    rw [caused]
    cases cause <;> cases st.receives <;> rfl
  · rw [completing _ stage trivial, Stream.windCompletions_head i held stage receives, if_neg other]
    rfl
  · rw [completing _ stage trivial, Stream.windCompletions_written i held stage]
    rfl
  · rcases stage with stage | ⟨s, stage | stage⟩ <;>
      rw [completing _ stage trivial, Stream.windCompletions_held i held] <;> rfl

end Sys2Proof.Machine
end

section
/-! SUPPORT. How a flush, a close and an abort end, also one that a halt interrupts (R18 to R24). -/

namespace Sys2Proof.Machine

open Sys2Proof

/-! ### FLUSHING -/

theorem Stream.wind_flushing_waiting_outbound {st : Stream} (i : StreamId) (state : st.state = .flushing)
    (stage : st.stage = .waiting) (dir : st.dir = .outbound) :
    st.wind i = if st.readsInFlight = 0 ∧ st.awaitsAnswer = false then
      some ({ st.discard Buffer.isOutbound with reads := [], stage := .leaving }, .none) else none := by
  simp only [Stream.wind, state, Stream.windFlushing, stage, dir]

theorem Stream.wind_flushing_waiting_inbound {st : Stream} (i : StreamId) (state : st.state = .flushing)
    (stage : st.stage = .waiting) (dir : st.dir = .inbound) :
    st.wind i = if st.writes = [] then
      some ({ (st.flushDiscard Buffer.isDraining).bringBack with stage := .leaving }, .none) else none := by
  simp only [Stream.wind, state, Stream.windFlushing, stage, dir]

theorem Stream.wind_flushing_leaving_outbound {st : Stream} (i : StreamId) (state : st.state = .flushing)
    (stage : st.stage = .leaving) (dir : st.dir = .outbound) : st.wind i = if st.headEnded then none else
      some ({ st with stage := if st.sends.isEmpty then .finished else .completeAll .flushed }, .none) := by
  simp only [Stream.wind, state, Stream.windFlushing, stage, dir]

theorem Stream.wind_flushing_leaving_inbound {st : Stream} (i : StreamId) (state : st.state = .flushing)
    (stage : st.stage = .leaving) (dir : st.dir = .inbound) : st.wind i = if st.headEnded then none else
      some ({ st with stage := if st.receives.isEmpty then .finished else .completeHead .flushed }, .none) := by
  simp only [Stream.wind, state, Stream.windFlushing, stage, dir, Stream.flushHeadStage]

/-- A head that may leave leaves before the flush goes on. -/
theorem Stream.wind_flushing_leaving_ended {st : Stream} (i : StreamId) (state : st.state = .flushing)
    (stage : st.stage = .leaving) (ended : st.headEnded = true) : st.wind i = none := by
  simp only [Stream.wind, state, Stream.windFlushing, stage, ended, if_true]

theorem Stream.wind_flushing_finished {st : Stream} (i : StreamId) (state : st.state = .flushing)
    (stage : st.stage = .finished) : st.wind i = some ({ st with
      state := if st.cause = none then .active else .halted, stage := .idle, request := none }, .flushed) := by
  simp only [Stream.wind, state, Stream.windFlushing, stage]

/-! ### CLOSING -/

theorem Stream.wind_closing_outbound {st : Stream} (i : StreamId) (state : st.state = .closing)
    (dir : st.dir = .outbound) : st.wind i =
      if st.sends = [] ∧ st.buffers.all Buffer.isFree ∧ st.reads = [] ∧ st.quietRing then some (st, .released)
      else none := by
  simp only [Stream.wind, state, Stream.windClosing, dir]

theorem Stream.wind_closing_waiting {st : Stream} (i : StreamId) (state : st.state = .closing) (dir : st.dir = .inbound)
    (stage : st.stage = .waiting) : st.wind i =
      if st.writes = [] ∧ (st.cause.isSome ∨ st.buffers.any Buffer.isKept = false ∨ st.receives = []) then
        some ({ st.discard Buffer.isKept with stage := .leaving }, .none)
      else none := by
  simp only [Stream.wind, state, Stream.windClosing, dir, stage]

theorem Stream.wind_closing_leaving {st : Stream} (i : StreamId) (state : st.state = .closing) (dir : st.dir = .inbound)
    (stage : st.stage = .leaving) : st.wind i = if st.headEnded then none else
      some ({ st with stage := if st.receives.isEmpty then .finished else .completeAll .closed }, .none) := by
  simp only [Stream.wind, state, Stream.windClosing, dir, stage]

theorem Stream.wind_closing_finished {st : Stream} (i : StreamId) (state : st.state = .closing)
    (dir : st.dir = .inbound) (stage : st.stage = .finished) : st.wind i =
      if st.receives ≠ [] then some ({ st with stage := .completeAll .closed }, .none)
      else if st.quietRing ∧ st.buffers.any Buffer.isReceiving = false then some (st, .released) else none := by
  simp only [Stream.wind, state, Stream.windClosing, dir, stage]

/-! ### ABORTING -/

theorem Stream.wind_aborting_waits {st : Stream} (i : StreamId) (state : st.state = .aborting)
    (stage : st.stage = .waiting) (waits : ¬(st.readsInFlight = 0 ∧ st.writes = [])) : st.wind i = none := by
  simp only [Stream.wind, state, Stream.windAborting, stage, if_neg waits]

theorem Stream.wind_aborting_waited_outbound {st : Stream} (i : StreamId) (state : st.state = .aborting)
    (stage : st.stage = .waiting) (ended : st.readsInFlight = 0 ∧ st.writes = []) (dir : st.dir = .outbound) :
    st.wind i = some ({ st.discard Buffer.isOutbound with reads := [], stage := .completeAll .aborted }, .none) := by
  simp only [Stream.wind, state, Stream.windAborting, stage, if_pos ended, dir]

theorem Stream.wind_aborting_waited_inbound {st : Stream} (i : StreamId) (state : st.state = .aborting)
    (stage : st.stage = .waiting) (ended : st.readsInFlight = 0 ∧ st.writes = []) (dir : st.dir = .inbound) :
    st.wind i = some ({ st with stage := .completeAll .aborted }, .none) := by
  simp only [Stream.wind, state, Stream.windAborting, stage, if_pos ended, dir]

theorem Stream.wind_aborting_finished {st : Stream} (i : StreamId) (state : st.state = .aborting)
    (stage : st.stage = .finished) : st.wind i = if st.ring.fetches = [] then some (st, .released) else none := by
  simp only [Stream.wind, state, Stream.windAborting, stage]

/-! ### HALTING with a flush or a close in flight -/

theorem Stream.wind_halting_flush_outbound {st : Stream} (i : StreamId) (state : st.state = .halting)
    (stage : st.stage = .finished) (request : st.request = some .flush) (dir : st.dir = .outbound) :
    st.wind i = some ({ st with failed := none, request := some .flushRest }, .none) := by
  simp only [Stream.wind, state, Stream.windHalting, stage, request, dir]

theorem Stream.wind_halting_flush_inbound {st : Stream} (i : StreamId) (state : st.state = .halting)
    (stage : st.stage = .finished) (request : st.request = some .flush) (dir : st.dir = .inbound) :
    st.wind i = some ({ ({ st with failed := none }.flushDiscard Buffer.isKept) with
      request := some .flushRest, stage := st.flushHeadStage }, .none) := by
  simp only [Stream.wind, state, Stream.windHalting, stage, request, dir]
  rfl

theorem Stream.wind_halting_flushRest {st : Stream} (i : StreamId) (state : st.state = .halting)
    (stage : st.stage = .finished) (request : st.request = some .flushRest) :
    st.wind i = if st.holdsFlushed then none else
      some ({ st with failed := none, state := .halted, stage := .idle, request := none }, .flushed) := by
  simp only [Stream.wind, state, Stream.windHalting, stage, request]

theorem Stream.wind_halting_close {st : Stream} (i : StreamId) (state : st.state = .halting)
    (stage : st.stage = .finished) (request : st.request = some .close) :
    st.wind i = some ({ st with failed := none, state := .closing, stage := .waiting }, .none) := by
  simp only [Stream.wind, state, Stream.windHalting, stage, request]

/-! ### The statement -/

theorem Stream.completesInStages_of_request (st : Stream)
    (state : st.state = .flushing ∨ st.state = .closing ∨ st.state = .aborting)
    (stages : st.dir = .inbound ∨ st.state ≠ .closing) : st.completesInStages := by
  rcases state with h | h | h
  · exact .inr (.inl h)
  · exact .inr (.inr (.inr ⟨h, stages.resolve_right (not_not.mpr h)⟩))
  · exact .inr (.inr (.inl h))

/-- What a buffer has left for the whole-store measure, as a statement writes it (2.5). -/
theorem map_left_eq_map_occupancy (bs : List Buffer) : (bs.map fun b => match b with
    | .draining data _ _ _ _ written _ => data.length - written
    | b => b.count) = bs.map Buffer.occupancy :=
  List.map_congr_left fun b _ => by cases b <;> rfl

/-- Settles O31: each state's stages in their order, those that complete records once for all. -/
theorem flushCloseAndAbortRunToTheirEnd : Obligations.FlushCloseAndAbortRunToTheirEnd := by
  intro i st formed goes reading awaited quiet flushedHeld outgoing kept left emptied
  have left_eq : ∀ p, left p = ((st.buffers.filter p).map Buffer.occupancy).sum := fun p =>
    congrArg List.sum (map_left_eq_map_occupancy (st.buffers.filter p))
  have empties : ∀ p stage st', st.wind i = some (st', .none) → st.Emptied p stage st' → emptied p stage st' :=
    fun p stage st' moves h => ⟨moves, h.stage_eq, h.state_eq, h.request_eq, by rw [left_eq]; exact h.discarded_eq,
      h.sends_eq, h.receives_length, h.buffers_length, fun k => ⟨h.picked k, h.others k⟩⟩
  have wait_iff : st.readsInFlight = 0 ∧ st.awaitsAnswer = false ↔ ¬reading ∧ ¬awaited := by
    rw [Stream.readsInFlight_eq_zero_iff, ← Bool.not_eq_true, Stream.awaitsAnswer_iff]
  have ends_iff : (st.writes = [] ∧ (st.cause.isSome ∨ st.buffers.any Buffer.isKept = false ∨ st.receives = [])) ↔
      (st.writes = [] ∧ (st.cause ≠ none ∨ (∀ b ∈ st.buffers, kept b = false) ∨ st.receives = [])) := by
    simp only [Option.isSome_iff_ne_none, List.any_eq_false, Bool.not_eq_true]
    rfl
  refine ⟨?completions, ?flushing, ?closingOut, ?closingIn, ?aborting, ?interruptedHead, ?interrupted,
    fun env b => ⟨rfl, Body.completeFor_eq i 4 .ok st.discarded b⟩⟩
  case completions =>
    intro state
    have winds := st.completesInStages_of_request state
    have notHalting : st.state ≠ .halting := by rcases state with h | h | h <;> simp [h]
    refine ⟨fun h status held ready stage => ?_, fun status e es held stage dir ready sends => ?_,
      fun status e es held stage dir receives => ?_, fun status b held stage sends receives ready =>
        ⟨fun bad fresh => ?_, fun bad => ?_⟩⟩
    · have busy : st.stage.completing := by rcases stage with stage | stage | stage <;> rw [stage] <;> trivial
      rw [Stream.wind_completing i busy (winds ready), Stream.windCompletions_held i held]
      rfl
    · rw [Stream.wind_completing i (stage ▸ trivial) (winds (.inr ready)), Stream.windCompletions_all i held stage,
        Stream.completeNext_send i _ dir sends, Stream.entryStatus_of_ne e _ notHalting]
      rfl
    · rw [Stream.wind_completing i (stage ▸ trivial) (winds (.inl dir)), Stream.windCompletions_all i held stage,
        Stream.completeNext_receive i _ dir receives]
      rfl
    · rw [Stream.wind_completing i (stage ▸ trivial) (winds ready), Stream.windCompletions_all i held stage,
        Stream.completeNext_bad i _ (st.noRecords_of_nil sends receives) bad fresh, if_neg notHalting]
      rfl
    · have all_formed : ∀ b', st.bad = some b' → b'.formed = true := by
        rcases bad with bad | ⟨bad, done⟩ <;> simp [bad]
        exact done
      rw [Stream.wind_completing i (stage ▸ trivial) (winds ready), Stream.windCompletions_all i held stage,
        Stream.completeNext_finished i _ (st.noRecords_of_nil sends receives) all_formed]
      rfl
  case flushing =>
    intro state
    refine ⟨fun stage dir waits => ?_, fun stage dir read answered => ?_, fun stage dir writes => ?_,
      fun stage dir writes => ?_, fun stage ended => Stream.wind_flushing_leaving_ended i state stage ended,
      fun stage ended dir => ?_, fun stage ended dir => ?_, fun e es held stage receives => ?_, fun held stage => ?_,
      fun stage => Stream.wind_flushing_finished i state stage⟩
    · rw [Stream.wind_flushing_waiting_outbound i state stage dir,
        if_neg fun ready => waits.elim (wait_iff.mp ready).1 (wait_iff.mp ready).2]
    · refine ⟨_, empties _ _ _ ?_ (st.discard_emptied_reads Buffer.isOutbound .leaving), rfl⟩
      rw [Stream.wind_flushing_waiting_outbound i state stage dir, if_pos (wait_iff.mpr ⟨read, answered⟩)]
    · rw [Stream.wind_flushing_waiting_inbound i state stage dir, if_neg writes]
    · refine ⟨_, empties _ _ _ ?_ st.flushDiscard_emptied, ?_, fun found expected gap first seq => ?_⟩
      · rw [Stream.wind_flushing_waiting_inbound i state stage dir, if_pos writes]
      · rw [Stream.flushDiscard_eq rfl]; rfl
      · rw [Stream.flushDiscard_eq rfl]
        simp [Stream.bringBack, found, Stream.setGap, seq]
    · rw [Stream.wind_flushing_leaving_outbound i state stage dir, if_neg (by simp [ended])]
    · rw [Stream.wind_flushing_leaving_inbound i state stage dir, if_neg (by simp [ended])]
    · rw [Stream.wind_completing i (stage ▸ trivial) (.inr (.inl state)),
        Stream.windCompletions_head i held stage receives, if_pos rfl]
      rfl
    · rw [Stream.wind_completing i (stage ▸ trivial) (.inr (.inl state)), Stream.windCompletions_written i held stage]
      rfl
  case closingOut =>
    intro state dir
    have done_iff : (st.sends = [] ∧ st.buffers.all Buffer.isFree ∧ st.reads = [] ∧ st.quietRing) ↔
        (st.sends = [] ∧ (∀ b ∈ st.buffers, b = .free) ∧ st.reads = [] ∧ quiet) := by
      simp only [List.all_eq_true, Buffer.isFree_iff, Stream.quietRing_iff, quiet]
    refine ⟨fun done => ?_, fun waits => ?_⟩
    · rw [Stream.wind_closing_outbound i state dir, if_pos (done_iff.mpr done)]
    · rw [Stream.wind_closing_outbound i state dir, if_neg]
      rw [done_iff]
      rintro ⟨sends, free, reads, still⟩
      rcases waits with h | ⟨b, hb, h⟩ | h | h
      · exact h sends
      · exact h (free b hb)
      · exact h reads
      · exact h still
  case closingIn =>
    intro state dir ends
    have done_iff : (st.quietRing = true ∧ st.buffers.any Buffer.isReceiving = false) ↔
        (quiet ∧ ∀ b ∈ st.buffers, b.isReceiving = false) := by
      simp only [Stream.quietRing_iff, List.any_eq_false, Bool.not_eq_true, quiet]
    refine ⟨fun stage waits => ?_, fun stage ready => ⟨_, empties _ _ _ ?_ (st.discard_emptied Buffer.isKept .leaving)⟩,
      fun stage ended => ?_, fun stage ended => ?_, fun stage receives => ?_,
      fun stage receives still arrived => ?_, fun stage receives waits => ?_⟩
    · rw [Stream.wind_closing_waiting i state dir stage, if_neg (fun h => waits (ends_iff.mp h))]
    · rw [Stream.wind_closing_waiting i state dir stage, if_pos (ends_iff.mpr ready)]
    · rw [Stream.wind_closing_leaving i state dir stage, if_pos ended]
    · rw [Stream.wind_closing_leaving i state dir stage, if_neg (by simp [ended])]
    · rw [Stream.wind_closing_finished i state dir stage, if_pos receives]
    · rw [Stream.wind_closing_finished i state dir stage, if_neg (not_not.mpr receives),
        if_pos (done_iff.mpr ⟨still, arrived⟩)]
    · rw [Stream.wind_closing_finished i state dir stage, if_neg (not_not.mpr receives), if_neg]
      rw [done_iff]
      rintro ⟨still, arrived⟩
      rcases waits with h | ⟨b, hb, h⟩
      · exact h still
      · exact Bool.false_ne_true ((arrived b hb).symm.trans h)
  case aborting =>
    intro state
    have ended_iff : st.readsInFlight = 0 ∧ st.writes = [] ↔ ¬reading ∧ st.writes = [] := by
      rw [Stream.readsInFlight_eq_zero_iff]
    refine ⟨fun stage waits => ?_, fun stage read writes dir => ?_, fun stage read writes dir => ?_,
      fun stage fetches => ?_, fun stage fetches => ?_⟩
    · exact Stream.wind_aborting_waits i state stage fun ready =>
        waits.elim (ended_iff.mp ready).1 (· (ended_iff.mp ready).2)
    · exact ⟨_, empties _ _ _ (Stream.wind_aborting_waited_outbound i state stage (ended_iff.mpr ⟨read, writes⟩) dir)
        (st.discard_emptied_reads Buffer.isOutbound (.completeAll .aborted)), rfl⟩
    · exact Stream.wind_aborting_waited_inbound i state stage (ended_iff.mpr ⟨read, writes⟩) dir
    · rw [Stream.wind_aborting_finished i state stage, if_pos fetches]
    · rw [Stream.wind_aborting_finished i state stage, if_neg fetches]
  case interruptedHead =>
    intro e es state held stage receives
    rw [Stream.wind_completing i (stage ▸ trivial) (.inl state), Stream.windCompletions_head i held stage receives,
      if_pos rfl]
    rfl
  case interrupted =>
    intro state stage
    refine ⟨fun request dir => ?_, fun request dir => ?_, fun request held => ?_, fun request held => ?_,
      fun request => Stream.wind_halting_close i state stage request⟩
    · exact Stream.wind_halting_flush_outbound i state stage request dir
    · refine ⟨_, Stream.wind_halting_flush_inbound i state stage request dir, rfl, ?_, ?_, fun k picked => ?_, ?_, rfl⟩
      · rw [Stream.flushDiscard_eq rfl]; exact state
      · rw [Stream.flushDiscard_eq rfl, left_eq]; rfl
      · exact (Stream.flushDiscard_buffer rfl { st with failed := none } k).trans (if_pos picked)
      · rw [Stream.flushDiscard_eq rfl]; rfl
    · rw [Stream.wind_halting_flushRest i state stage request, if_pos (st.holdsFlushed_iff.mpr held)]
    · rw [Stream.wind_halting_flushRest i state stage request, if_neg fun h => held (st.holdsFlushed_iff.mp h)]

end Sys2Proof.Machine
end

section
/-! SUPPORT. The checks of OPEN_STREAM (R4 to R8), with profiles read byte by byte (8.1, R6). -/

namespace Sys2Proof.Machine

open Sys2Proof Host

/-! ### Profiles by their bytes -/

/-- A byte of a profile as a number; 0 beyond its end. -/
def profileByte (p : List Byte) (k : Nat) : Nat := (p.getD k 0).toNat

theorem profileByte_lt (p : List Byte) (k : Nat) : profileByte p k < 2 ^ 8 := (p.getD k 0).isLt

theorem profileByte_drop (p : List Byte) (n k : Nat) : profileByte (p.drop n) k = profileByte p (n + k) := by
  simp [profileByte, List.getD_eq_getElem?_getD]

theorem profileField_one (p : List Byte) (k : Nat) : profileField p k 1 = profileByte p k := by
  have first : profileByte (p.drop k) 0 = profileByte p k := by rw [profileByte_drop, Nat.add_zero]
  rw [profileField, ← first]
  cases p.drop k <;> simp [fit, leVal, profileByte]

theorem profileField_two (p : List Byte) (k : Nat) :
    profileField p k 2 = profileByte p k + 256 * profileByte p (k + 1) := by
  have first : profileByte (p.drop k) 0 = profileByte p k := by rw [profileByte_drop, Nat.add_zero]
  have second : profileByte (p.drop k) 1 = profileByte p (k + 1) := profileByte_drop p k 1
  rw [profileField, ← first, ← second]
  match p.drop k with
  | [] => rfl
  | [b] => simp [fit, leVal, profileByte]
  | b :: c :: bs => simp [fit, leVal, profileByte]

/-- Where entry `k` of a profile begins (11.4, "Profile"). -/
def profileEntryStart (p : List Byte) (k : Nat) : Nat := 8 + (profileByte p 3 + 3) / 4 * 4 + 12 * k

/-- An entry's fields are bytes of the profile. -/
theorem profileEntryAt_fields (p : List Byte) (k : Nat) :
    (profileEntryAt p k).stream = profileByte p (profileEntryStart p k) ∧
    (profileEntryAt p k).dir.toNat = profileByte p (profileEntryStart p k + 1) ∧
    (profileEntryAt p k).cls.toNat = profileByte p (profileEntryStart p k + 2) ∧
    (profileEntryAt p k).maxPerCycle = profileByte p (profileEntryStart p k + 3) ∧
    (profileEntryAt p k).maxLen =
      profileByte p (profileEntryStart p k + 4) + 256 * profileByte p (profileEntryStart p k + 5) := by
  have start : 8 + paddedName (profileNameLength p) + 12 * k = profileEntryStart p k := by
    rw [profileNameLength, profileField_one, paddedName, profileEntryStart]
  simp only [profileEntryAt, start, profileField_one, profileField_two, profileByte_drop, BitVec.toNat_ofNat,
    Nat.mod_eq_of_lt (profileByte_lt _ _), Nat.add_zero, true_and]

/-- A profile admits a stream when one of its entries does (R6). -/
theorem profileAllows_iff (p : List Byte) (i : StreamId) (dir : Direction) (st : Stream) :
    profileAllows p i dir st = true ↔ ∃ k, k < profileByte p 2 ∧
      profileByte p (profileEntryStart p k) = i.val ∧ profileByte p (profileEntryStart p k + 1) = dir.code ∧
      profileByte p (profileEntryStart p k + 2) = st.cls.code ∧
      st.maxLen ≤ profileByte p (profileEntryStart p k + 4) + 256 * profileByte p (profileEntryStart p k + 5) ∧
      (st.cls = .scheduled → st.perCycle ≤ profileByte p (profileEntryStart p k + 3)) := by
  have limit : ∀ n, (st.cls == StreamClass.bestEffort || decide (st.perCycle ≤ n)) = true ↔
      (st.cls = .scheduled → st.perCycle ≤ n) := by
    intro n; cases st.cls <;> simp
  simp only [profileAllows, profileEntries, List.any_map, List.any_eq_true, List.mem_range, Function.comp_apply,
    Bool.and_eq_true, beq_iff_eq, decide_eq_true_eq, limit, profileEntryCount, profileField_one, profileEntryAt_fields,
    and_assoc]

theorem Direction.opposite_code (dir : Direction) : dir.opposite.code = 3 - dir.code := by cases dir <;> rfl

/-! ### Parameters in range -/

/-- The ring sizes are the powers of two from 8 to 4096 (R4, R150). -/
theorem validSize_iff (n : Nat) : validSize n = true ↔ ∃ k, 3 ≤ k ∧ k ≤ 12 ∧ n = 2 ^ k := by
  constructor
  · intro h
    have sizes : n ∈ [2 ^ 3, 2 ^ 4, 2 ^ 5, 2 ^ 6, 2 ^ 7, 2 ^ 8, 2 ^ 9, 2 ^ 10, 2 ^ 11, 2 ^ 12] := by
      simpa [validSize] using h
    simp only [List.mem_cons, List.not_mem_nil, or_false] at sizes
    rcases sizes with h | h | h | h | h | h | h | h | h | h <;> exact ⟨_, by decide, by decide, h⟩
  · rintro ⟨k, low, high, rfl⟩
    interval_cases k <;> rfl

theorem openInRange_iff (ringCount : Nat) (p : OpenParams) : openInRange ringCount p = true ↔
    (p.dir = 1 ∨ p.dir = 2) ∧ (p.packetLength.toNat % 4 = 0 ∧ 4 ≤ p.packetLength.toNat ∧ p.packetLength.toNat ≤ 1024) ∧
    (p.bufferCount = 2 ∨ p.bufferCount = 3 ∨ p.bufferCount = 4) ∧
    ((p.cls = 1 ∧ (p.perCycle = 1 ∨ p.perCycle = 2 ∨ p.perCycle = 3)) ∨ (p.cls = 2 ∧ p.perCycle = 0)) ∧
    p.base.toNat % 64 = 0 ∧ (∃ n, 3 ≤ n ∧ n ≤ 12 ∧ p.size.toNat = 2 ^ n) ∧ p.ring.toNat < ringCount := by
  have counts : (2 ≤ p.bufferCount.toNat ∧ p.bufferCount.toNat ≤ 4) ↔
      (p.bufferCount = 2 ∨ p.bufferCount = 3 ∨ p.bufferCount = 4) := by bv_omega
  have rates : (1 ≤ p.perCycle.toNat ∧ p.perCycle.toNat ≤ 3) ↔
      (p.perCycle = 1 ∨ p.perCycle = 2 ∨ p.perCycle = 3) := by bv_omega
  simp only [openInRange, Bool.and_eq_true, Bool.or_eq_true, beq_iff_eq, decide_eq_true_eq, aligned64, validSize_iff,
    and_assoc, ← counts, ← rates]

/-! ### The request -/

theorem exec_openStream {s : State} {ring : HostRing} {stream : Byte} {i : StreamId} (tag : Tag) (p : OpenParams)
    (h : s.awaitsRequest ring) (field : i.val = stream.toNat) (free : s.unclaimed i) :
    exec (.openStream tag stream p) s =
      .next ((s.withRequest ring (AdminRecord.ofOpen stream tag p) true).openRequest s.body.nextId i p).followed := by
  have carried := State.event_streamRequest h (AdminRecord.wellFormed_ofOpen stream tag p) rfl field (free.claimFree 1)
  refine (congrArg Outcome.next carried).trans ?_
  simp only [State.carryOutStream, AdminRecord.openParams_ofOpen]
  rfl

theorem State.openRequest_refused {s : State} {i : StreamId} {p : OpenParams} {status : Status} (id : Nat)
    (h : s.openRefusal i p = some status) : s.openRequest id i p = s.finish id status 0 := by
  simp only [State.openRequest, h]

theorem State.openRequest_accepted {s : State} {i : StreamId} {p : OpenParams} (id : Nat)
    (h : s.openRefusal i p = none) :
    s.openRequest id i p = (s.onBody (Body.openAt s.isUp i (Stream.opened s.isUp p))).finish id .ok 0 := by
  simp only [State.openRequest, h]

/-- Settles O14: each check is reached only once those before it have passed. -/
theorem openStreamChecksInOrder : Obligations.OpenStreamChecksInOrder := by
  intro s ring tag stream i p awaits field free c r st refused inRange admits inProfile matched fits room
  have refuses : ∀ status, (s.withRequest ring r true).openRefusal i p = some status → refused status := by
    intro status h
    show s.completesWith c ring r true status 0
    rw [State.completesWith, exec_openStream tag p awaits field free,
      State.openRequest_refused (s := s.withRequest ring _ true) _ h]
  have checks : (s.withRequest ring r true).openRefusal i p =
      if (s.body.stream i).isSome then some .wrongState
      else if !openInRange s.body.ringCount p then some .badRequest
      else if !localAllows s.bp.localProfile i st then some .notInProfile
      else if s.isUp && !peerAllows s.bp.peerProfile i st then some .profileMismatch
      else if st.isScheduledOut && !s.reservationFits st then some .noBandwidth
      else if freeCount s.body.blocks < blocksNeeded st.maxLen st.buffers.length then some .noStore
      else none := rfl
  have range_iff : (!openInRange s.body.ringCount p) = true ↔ ¬inRange := by
    rw [Bool.not_eq_true', ← Bool.not_eq_true]
    exact not_congr (openInRange_iff _ p)
  have profile_iff : (!localAllows s.bp.localProfile i st) = true ↔ ¬inProfile := by
    rw [Bool.not_eq_true', ← Bool.not_eq_true]
    exact not_congr (profileAllows_iff _ i st.dir st)
  have peer_iff : (s.isUp && !peerAllows s.bp.peerProfile i st) = true ↔ ¬matched := by
    rw [Bool.and_eq_true, State.isUp_iff, Bool.not_eq_true', ← Bool.not_eq_true, ← Classical.not_imp]
    refine not_congr (imp_congr_right fun _ => ?_)
    cases held : s.bp.peerProfile with
    | none => simp [peerAllows]
    | some peer =>
      rw [peerAllows, profileAllows_iff, Direction.opposite_code]
      exact ⟨fun h => ⟨peer, rfl, h⟩, fun ⟨_, same, h⟩ => Option.some.inj same ▸ h⟩
  have fits_iff : (st.isScheduledOut && !s.reservationFits st) = true ↔ ¬fits := reservation_refused_iff st s
  have room_iff : freeCount s.body.blocks < blocksNeeded st.maxLen st.buffers.length ↔ ¬room := not_le.symm
  refine ⟨fun opened => refuses _ ?_, fun closed => ?_⟩
  · rw [checks, if_pos (Option.isSome_iff_ne_none.mpr opened)]
  have shut : ¬((s.body.stream i).isSome = true) := by simp [closed]
  refine ⟨fun bad => refuses _ ?_, fun ranged bad => refuses _ ?_, fun ranged listed bad => refuses _ ?_,
    fun ranged listed peered bad => refuses _ ?_, fun ranged listed peered reserved bad => refuses _ ?_,
    fun ranged listed peered reserved spare => ?_⟩
  · rw [checks, if_neg shut, if_pos (range_iff.mpr bad)]
  · rw [checks, if_neg shut, if_neg (range_iff.not_left.mpr ranged), if_pos (profile_iff.mpr bad)]
  · rw [checks, if_neg shut, if_neg (range_iff.not_left.mpr ranged), if_neg (profile_iff.not_left.mpr listed),
      if_pos (peer_iff.mpr bad)]
  · rw [checks, if_neg shut, if_neg (range_iff.not_left.mpr ranged), if_neg (profile_iff.not_left.mpr listed),
      if_neg (peer_iff.not_left.mpr peered), if_pos (fits_iff.mpr bad)]
  · rw [checks, if_neg shut, if_neg (range_iff.not_left.mpr ranged), if_neg (profile_iff.not_left.mpr listed),
      if_neg (peer_iff.not_left.mpr peered), if_neg (fits_iff.not_left.mpr reserved), if_pos (room_iff.mpr bad)]
  · have accepted : (s.withRequest ring r true).openRefusal i p = none := by
      rw [checks, if_neg shut, if_neg (range_iff.not_left.mpr ranged), if_neg (profile_iff.not_left.mpr listed),
        if_neg (peer_iff.not_left.mpr peered), if_neg (fits_iff.not_left.mpr reserved),
        if_neg (room_iff.not_left.mpr spare)]
    rw [State.carriesOut, exec_openStream tag p awaits field free,
      State.openRequest_accepted (s := s.withRequest ring _ true) _ accepted]
    rfl

end Sys2Proof.Machine
end

section
/-! SUPPORT. The blocks of a stream at its opening and its release (R8, R26, R28, R30). -/

namespace Sys2Proof.Machine

open Sys2Proof

/-! ### Which blocks a stream is given -/

/-- The free blocks below `k`. -/
def freeBelow (blocks : Vector (Option Owner) 96) (k : Fin 96) : Nat :=
  ((List.finRange 96).filter fun l => decide (l < k) && blocks[l].isNone).length

theorem mem_freeBlocks {blocks : Vector (Option Owner) 96} {k : Fin 96} : k ∈ freeBlocks blocks ↔ blocks[k] = none := by
  simp [freeBlocks]

theorem freeBlocks_nodup (blocks : Vector (Option Owner) 96) : (freeBlocks blocks).Nodup :=
  (List.nodup_finRange 96).filter _

theorem toList_eq_map_finRange {α : Type} {n : Nat} (v : Vector α n) :
    v.toList = (List.finRange n).map fun k => v[k] := by
  refine List.ext_getElem (by simp) fun k h _ => ?_
  simp

theorem freeBlocks_length (blocks : Vector (Option Owner) 96) : (freeBlocks blocks).length = freeCount blocks := by
  rw [freeCount, toList_eq_map_finRange, List.countP_map, List.countP_eq_length_filter]
  rfl

/-- In an increasing list an element stands behind those that are less. -/
theorem idxOf_eq_length_filter_lt {n : Nat} {l : List (Fin n)} (sorted : l.Pairwise (· < ·)) {k : Fin n} (mem : k ∈ l) :
    l.idxOf k = (l.filter (· < k)).length := by
  induction l with
  | nil => cases mem
  | cons a l ih =>
    obtain ⟨least, sorted⟩ := List.pairwise_cons.mp sorted
    rcases List.mem_cons.mp mem with rfl | mem
    · have none_less : l.filter (· < k) = [] :=
        List.filter_eq_nil_iff.mpr fun b hb => by simpa using (least b hb).le
      simp [none_less]
    · have less : a < k := least k mem
      simp [List.idxOf_cons_ne l less.ne, less, ih sorted mem]

/-- A free block stands in the free list behind the free blocks below it. -/
theorem idxOf_freeBlocks {blocks : Vector (Option Owner) 96} {k : Fin 96} (free : blocks[k] = none) :
    (freeBlocks blocks).idxOf k = freeBelow blocks k := by
  have sorted : (freeBlocks blocks).Pairwise (· < ·) := (List.pairwise_lt_finRange 96).filter _
  rw [idxOf_eq_length_filter_lt sorted (mem_freeBlocks.mpr free), freeBlocks, List.filter_filter, freeBelow]

/-- Assigning blocks gives each of the list the owner of its place, and leaves the others (R28). -/
theorem assignBlocks_getElem (i : StreamId) (maxLen n : Nat) {ks : List (Fin 96)} (nodup : ks.Nodup)
    (blocks : Vector (Option Owner) 96) (k : Fin 96) : (assignBlocks i maxLen n ks blocks)[k] =
      if k ∈ ks then some (ownerOf i maxLen (n + ks.idxOf k)) else blocks[k] := by
  induction ks generalizing n blocks with
  | nil => simp [assignBlocks]
  | cons a ks ih =>
    obtain ⟨fresh, nodup⟩ := List.nodup_cons.mp nodup
    rw [assignBlocks, ih (n + 1) nodup]
    by_cases same : k = a
    · subst same
      simp [fresh]
    · have apart : ¬a.val = k.val := fun h => same (Fin.ext h.symm)
      simp [same, apart, List.idxOf_cons_ne ks (Ne.symm same), Nat.add_assoc, Nat.add_comm 1]

/-- The blocks given are the lowest-numbered free ones, in increasing number (R8, R28). -/
theorem allocate_getElem (i : StreamId) (maxLen bufferCount : Nat) (blocks : Vector (Option Owner) 96) (k : Fin 96) :
    (allocate i maxLen bufferCount blocks)[k] =
      if blocks[k] = none ∧ freeBelow blocks k < blocksNeeded maxLen bufferCount then
        some (ownerOf i maxLen (freeBelow blocks k))
      else blocks[k] := by
  rw [allocate, assignBlocks_getElem i maxLen 0 ((freeBlocks_nodup blocks).sublist (List.take_sublist _ _))]
  by_cases free : blocks[k] = none
  · have place := idxOf_freeBlocks free
    have given := List.mem_take_iff_idxOf_lt (n := blocksNeeded maxLen bufferCount) (mem_freeBlocks.mpr free)
    rw [place] at given
    by_cases low : freeBelow blocks k < blocksNeeded maxLen bufferCount
    · rw [if_pos (given.mpr low), if_pos ⟨free, low⟩, Nat.zero_add,
        (List.take_prefix _ _).idxOf_eq_of_mem (given.mpr low), place]
    · rw [if_neg (mt given.mp low), if_neg fun h => low h.2]
  · rw [if_neg fun h => free (mem_freeBlocks.mp (List.mem_of_mem_take h)), if_neg fun h => free h.1]

theorem ownedBy_ownerOf (i : StreamId) (maxLen n : Nat) : ownedBy i (some (ownerOf i maxLen n)) = true := by
  by_cases one : maxLen ≤ 512 <;> simp [ownedBy, ownerOf, one]

/-- A stream that owned no block owns as many as it needs. -/
theorem countP_ownedBy_allocate {i : StreamId} {maxLen bufferCount : Nat} {blocks : Vector (Option Owner) 96}
    (unowned : ∀ k : Fin 96, ownedBy i blocks[k] = false) (room : blocksNeeded maxLen bufferCount ≤ freeCount blocks) :
    (allocate i maxLen bufferCount blocks).toList.countP (ownedBy i) = blocksNeeded maxLen bufferCount := by
  let given := (freeBlocks blocks).take (blocksNeeded maxLen bufferCount)
  have nodup : given.Nodup := (freeBlocks_nodup blocks).sublist (List.take_sublist _ _)
  have owned_iff : ∀ k : Fin 96, ownedBy i (allocate i maxLen bufferCount blocks)[k] = decide (k ∈ given) := by
    intro k
    rw [allocate, assignBlocks_getElem i maxLen 0 nodup]
    by_cases h : k ∈ given
    · rw [if_pos h, ownedBy_ownerOf, decide_eq_true h]
    · rw [if_neg h, unowned k, decide_eq_false h]
  have same : ((List.finRange 96).filter fun k => decide (k ∈ given)).Perm given :=
    (List.perm_ext_iff_of_nodup ((List.nodup_finRange 96).filter _) nodup).mpr (by simp)
  calc (allocate i maxLen bufferCount blocks).toList.countP (ownedBy i)
      = (List.finRange 96).countP fun k => decide (k ∈ given) := by
        rw [toList_eq_map_finRange, List.countP_map]
        exact congrArg (List.countP · _) (funext owned_iff)
    _ = given.length := by rw [List.countP_eq_length_filter, same.length_eq]
    _ = blocksNeeded maxLen bufferCount := by rw [List.length_take, freeBlocks_length, min_eq_left room]

theorem freeBelow_mono (blocks : Vector (Option Owner) 96) {k l : Fin 96} (h : k < l) :
    freeBelow blocks k ≤ freeBelow blocks l := by
  rw [freeBelow, freeBelow, ← List.countP_eq_length_filter, ← List.countP_eq_length_filter]
  refine List.countP_mono_left fun m _ hm => ?_
  simp only [Bool.and_eq_true, decide_eq_true_eq] at hm ⊢
  exact ⟨hm.1.trans h, hm.2⟩

/-! ### Opening -/

/-- A stream is opened with the parameters of its request, its work ring and record lists empty (R2, R8). -/
theorem Stream.opened_eq {up : Bool} {p : OpenParams} {dir : Direction} {cls : StreamClass}
    (hdir : Direction.ofCode p.dir = some dir) (hcls : StreamClass.ofCode p.cls = some cls) :
    Stream.opened up p =
      { state := .active, dir := dir, cls := cls, maxLen := p.packetLength.toNat, perCycle := p.perCycle.toNat,
        bound := Fin.ofNat 4 p.ring.toNat, cause := none, seq := .initial dir cls, held := none, profileChecked := up,
        buffers := List.replicate p.bufferCount.toNat .free, queue := [], sends := [], receives := [], bad := none,
        failed := none, reads := [], writes := [], writeFailed := false, watch := none,
        ring := .fresh p.base p.size.toNat, request := none, stage := .idle, discarded := 0 } := by
  simp only [Stream.opened, hdir, hcls, Option.getD_some]

theorem Stream.opened_buffers_length (up : Bool) (p : OpenParams) :
    (Stream.opened up p).buffers.length = p.bufferCount.toNat := List.length_replicate

theorem Body.placeNotice_stream (i : StreamId) (closed : Bool) (b : Body) (j : StreamId) :
    (b.placeNotice i closed).stream j = b.stream j := rfl

theorem Body.openAt_stream_self (up : Bool) (i : StreamId) (st : Stream) (b : Body) :
    (b.openAt up i st).stream i = some st := by
  cases up <;> simp [Body.openAt, Body.stream, Body.placeNotice]

theorem Body.openAt_stream_ne {i j : StreamId} (h : j ≠ i) (up : Bool) (st : Stream) (b : Body) :
    (b.openAt up i st).stream j = b.stream j := by
  have apart : ¬i.val = j.val := fun e => h (Fin.ext e.symm)
  cases up <;> simp [Body.openAt, Body.stream, Body.placeNotice, apart]

theorem Body.openAt_blocks (up : Bool) (i : StreamId) (st : Stream) (b : Body) :
    (b.openAt up i st).blocks = allocate i st.maxLen st.buffers.length b.blocks := by
  cases up <;> rfl

/-! ### Release -/

theorem Body.release_eq (up : Bool) (i : StreamId) (st : Stream) (b : Body) : b.release up i st =
    let gone := { b with
      streams := b.streams.set i none
      blocks := releaseBlocks i b.blocks
      events := b.events.filter fun e => !(e.source == some i && e.detail.kind == 3)
      rx := dropClaim i b.rx
      lt := { b.lt with lane := cutStream i b.lt.lane }
      table := b.table.map fun e =>
        if e.held = none ∧ e.stream = some i ∧ e.code = (if st.state = .aborting then 3 else 2) then
          e.complete .ok (if st.state ≠ .aborting ∧ st.dir = .inbound then st.discarded else st.ring.taken)
        else e }
    if up then gone.placeNotice i true else gone := by
  rw [Body.release, Body.completeRelease_eq, Body.completeFor_eq]
  cases up <;> rfl

theorem Body.release_streams (up : Bool) (i : StreamId) (st : Stream) (b : Body) :
    (b.release up i st).streams = b.streams.set i none := by rw [Body.release_eq]; cases up <;> rfl
theorem Body.release_blocks (up : Bool) (i : StreamId) (st : Stream) (b : Body) :
    (b.release up i st).blocks = releaseBlocks i b.blocks := by rw [Body.release_eq]; cases up <;> rfl
theorem Body.release_events (up : Bool) (i : StreamId) (st : Stream) (b : Body) : (b.release up i st).events =
    b.events.filter fun e => !(e.source == some i && e.detail.kind == 3) := by rw [Body.release_eq]; cases up <;> rfl
theorem Body.release_rx (up : Bool) (i : StreamId) (st : Stream) (b : Body) :
    (b.release up i st).rx = dropClaim i b.rx := by rw [Body.release_eq]; cases up <;> rfl
theorem Body.release_lane (up : Bool) (i : StreamId) (st : Stream) (b : Body) :
    (b.release up i st).lt.lane = cutStream i b.lt.lane := by rw [Body.release_eq]; cases up <;> rfl
theorem Body.release_table (up : Bool) (i : StreamId) (st : Stream) (b : Body) : (b.release up i st).table =
    b.table.map fun e =>
      if e.held = none ∧ e.stream = some i ∧ e.code = (if st.state = .aborting then 3 else 2) then
        e.complete .ok (if st.state ≠ .aborting ∧ st.dir = .inbound then st.discarded else st.ring.taken)
      else e := by rw [Body.release_eq]; cases up <;> rfl

/-- SCHEDULE_MISS is the kind with code 3. -/
theorem Detail.kind_eq_three_iff (d : Detail) : d.kind = 3 ↔ ∃ overrun, d = .scheduleMiss overrun := by
  cases d <;> simp [Detail.kind]

/-- Settles O15: what an opening allocates is `allocate_getElem`; a release is read off `Body.release_eq`. -/
theorem openingAndReleaseOfAStream : Obligations.OpeningAndReleaseOfAStream := by
  refine ⟨?opening, ?release⟩
  case opening =>
    intro up i p dir cls b hdir hcls unowned st needed room t
    have needed_eq : blocksNeeded st.maxLen st.buffers.length = needed := by
      rw [Stream.opened_buffers_length]; rfl
    have blocks : ∀ k : Fin 96, t.blocks[k] = if b.blocks[k] = none ∧ freeBelow b.blocks k < needed then
        some (ownerOf i st.maxLen (freeBelow b.blocks k)) else b.blocks[k] := by
      intro k
      rw [← needed_eq, ← allocate_getElem, ← Body.openAt_blocks up]
    have unowned' : ∀ k : Fin 96, ownedBy i b.blocks[k] = false := fun k => unowned _ (by simp)
    refine ⟨Stream.opened_eq hdir hcls, Body.openAt_stream_self up i st b, fun j h => Body.openAt_stream_ne h up st b,
      fun k taken => ?_, fun k free => ?_, ?_, fun k l less owned => ?_, ?_, ?_, ?_⟩
    · rw [blocks, if_neg]
      rintro ⟨free, -⟩
      simp [free] at taken
    · intro before
      rw [blocks k, ownerOf]
      by_cases full : needed ≤ before
      · rw [if_pos full, if_neg fun h => absurd h.2 (not_lt.mpr full), free]
      · rw [if_neg full, if_pos ⟨free, not_le.mp full⟩]
        exact apply_ite some _ _ _
    · rw [Body.openAt_blocks, ← needed_eq]
      exact countP_ownedBy_allocate unowned' (needed_eq ▸ room)
    · have given : b.blocks[l] = none ∧ freeBelow b.blocks l < needed := by
        by_contra kept
        rw [blocks l, if_neg kept, unowned' l] at owned
        exact Bool.false_ne_true owned
      rw [blocks k]
      by_cases free : b.blocks[k] = none
      · rw [if_pos ⟨free, (freeBelow_mono b.blocks less).trans_lt given.2⟩]
        rfl
      · rw [if_neg fun h => free h.1]
        exact Option.isSome_iff_ne_none.mpr free
    · cases up <;> rfl
    · cases up <;> rfl
    · cases up
      · rfl
      · exact ⟨rfl, List.mem_append_right _ (List.mem_singleton_self _)⟩
  case release =>
    intro up i st b t ends
    refine ⟨?_, fun j h => ?_, fun k => ?_, fun e => ?_, fun down => ?_, fun isUp => ?_, fun h k p lane => ?_,
      fun silent => ?_, fun r arrives => ?_, ?_⟩
    · simp [t, Body.stream, Body.release_streams]
    · have apart : ¬i.val = j.val := fun e => h (Fin.ext e.symm)
      simp [t, Body.stream, Body.release_streams, apart]
    · simp [t, Body.release_blocks, releaseBlocks]
    · rw [Body.release_events, List.mem_filter, ← Detail.kind_eq_three_iff]
      simp [imp_iff_not_or]
    · subst down
      simp only [t, Body.release_eq]
      exact ⟨rfl, rfl, rfl⟩
    · subst isUp
      simp only [t, Body.release_eq]
      exact ⟨List.mem_append_right _ (List.mem_singleton_self _), rfl⟩
    · rw [Body.release_lane, lane, cutStream]
    · rw [Body.release_rx, silent, dropClaim]
    · rw [Body.release_rx, arrives, dropClaim]
      split <;> simp [*]
    · simp only [t, Body.release_table, ends, decide_eq_true_eq]

end Sys2Proof.Machine
end

section
/-! SUPPORT. The examination of the streams when the link reaches UP (R2, R7, R16, R142). -/

namespace Sys2Proof.Machine

open Sys2Proof

/-! ### Store events that change no buffer -/

/-- A change that moves no buffer changes no measure, so that no watch is affected (R42, R89). -/
theorem watchAfter_of_buffers {old new : Stream} (h : new.buffers = old.buffers) :
    watchAfter old new = (new.watch, none) := by
  have same : ∀ m, old.measure m = new.measure m := by
    intro m
    cases m <;> simp [Stream.measure, Stream.wholeStore, Stream.openPacket, h]
  cases w : new.watch <;> simp [watchAfter, w, same]

theorem Stream.stored_of_buffers {old new : Stream} (h : new.buffers = old.buffers) : old.stored new = new := by
  rw [Stream.stored, watchAfter_of_buffers h]

theorem Body.put_events_of_buffers {old new : Stream} (h : new.buffers = old.buffers) (i : StreamId) (b : Body) :
    (b.put i old new).events = b.events := by
  rw [Body.put_eq, watchAfter_of_buffers h]

/-! ### Raised events -/

theorem exists_mem_raiseInto (source : Option StreamId) (d : Detail) (es : List Event) :
    ∃ e ∈ raiseInto source d es, e.source = source ∧ e.detail = d := by
  induction es with
  | nil => exact ⟨_, List.mem_singleton_self _, rfl, rfl⟩
  | cons x es ih =>
    rw [raiseInto]
    split
    · next same => exact ⟨_, List.mem_cons_self .., same.1, rfl⟩
    · obtain ⟨e, mem, h⟩ := ih
      exact ⟨e, List.mem_cons_of_mem _ mem, h⟩

/-- Raising an event leaves the pending events of other sources. -/
theorem mem_raiseInto_of_source_ne {source : Option StreamId} {d : Detail} {es : List Event} {e : Event} (mem : e ∈ es)
    (other : e.source ≠ source) : e ∈ raiseInto source d es := by
  induction es with
  | nil => cases mem
  | cons x es ih =>
    rw [raiseInto]
    rcases List.mem_cons.mp mem with rfl | mem
    · rw [if_neg fun h => other h.1]
      exact List.mem_cons_self ..
    · split
      · exact List.mem_cons_of_mem _ mem
      · exact List.mem_cons_of_mem _ (ih mem)

/-! ### One stream of the examination -/

/-- What a stream that passes adds to the sum: a SCHEDULED OUT one its reservation (R7, R16). -/
def Stream.share (st : Stream) : Nat := if st.isScheduledOut then st.reservation else 0

/-- The stream can halt, the peer profile admits it, and its share fits beside the sum (R16). -/
def Stream.passes (peer : List Byte) (reservable sum : Nat) (i : StreamId) (st : Stream) : Bool :=
  st.mayHalt && peerAllows (some peer) i st && (!st.isScheduledOut || decide (sum + st.share ≤ reservable))

/-- The stream can halt and does not pass: it halts with PROFILE_MISMATCH (R16). -/
def Stream.fails (peer : List Byte) (reservable sum : Nat) (i : StreamId) (st : Stream) : Bool :=
  st.mayHalt && !st.passes peer reservable sum i

/-- The stream once it has been examined. -/
def Stream.examined (peer : List Byte) (reservable sum : Nat) (i : StreamId) (st : Stream) : Stream :=
  if st.passes peer reservable sum i then { st with profileChecked := true }
  else if st.fails peer reservable sum i then st.beginHalt .profileMismatch
  else st

section Examination

variable {peer : List Byte} {reservable : Nat} {acc : Body × Nat} {i : StreamId} {st : Stream}

theorem Stream.fails_iff {sum : Nat} : st.fails peer reservable sum i = true ↔
    st.mayHalt = true ∧ st.passes peer reservable sum i = false := by
  simp [Stream.fails]

theorem Body.examineOne_none (h : acc.1.stream i = none) : Body.examineOne peer reservable acc i = acc := by
  simp only [Body.examineOne, h]

/-- One step of the examination, by what becomes of its stream. -/
theorem Body.examineOne_some (h : acc.1.stream i = some st) : Body.examineOne peer reservable acc i =
    if st.passes peer reservable acc.2 i then (acc.1.put i st { st with profileChecked := true }, acc.2 + st.share)
    else if st.fails peer reservable acc.2 i then
      ((acc.1.put i st (st.beginHalt .profileMismatch)).raise (some i) (.streamHalted .profileMismatch), acc.2)
    else acc := by
  simp only [Body.examineOne, h, Body.halt_eq h, Body.modify_some h, Stream.passes, Stream.fails, Stream.share]
  by_cases may : st.mayHalt = true
  · by_cases allowed : peerAllows (some peer) i st = true
    · by_cases reserves : st.isScheduledOut = true
      · by_cases fits : acc.2 + st.reservation ≤ reservable <;> simp [may, allowed, reserves, fits]
      · simp [may, allowed, reserves]
    · simp [may, allowed]
  · simp [may]

theorem Body.examineOne_stream_self (h : acc.1.stream i = some st) :
    (Body.examineOne peer reservable acc i).1.stream i = some (st.examined peer reservable acc.2 i) := by
  rw [Body.examineOne_some h, Stream.examined]
  split
  · exact (Body.put_stream_self ..).trans (congrArg some (Stream.stored_of_buffers rfl))
  · split
    · exact (Body.put_stream_self ..).trans (congrArg some (Stream.stored_of_buffers rfl))
    · exact h

theorem Body.examineOne_stream_ne {j : StreamId} (h : j ≠ i) :
    (Body.examineOne peer reservable acc i).1.stream j = acc.1.stream j := by
  cases opened : acc.1.stream i with
  | none => rw [Body.examineOne_none opened]
  | some st =>
    rw [Body.examineOne_some opened]
    split
    · exact Body.put_stream_ne h ..
    · split
      · exact Body.put_stream_ne h ..
      · rfl

theorem Body.examineOne_sum (h : acc.1.stream i = some st) : (Body.examineOne peer reservable acc i).2 =
    acc.2 + if st.passes peer reservable acc.2 i then st.share else 0 := by
  rw [Body.examineOne_some h]
  split
  · rfl
  · split <;> rfl

theorem Body.examineOne_table : (Body.examineOne peer reservable acc i).1.table = acc.1.table := by
  cases opened : acc.1.stream i with
  | none => rw [Body.examineOne_none opened]
  | some st =>
    rw [Body.examineOne_some opened]
    split
    · exact Body.put_table ..
    · split
      · exact Body.put_table ..
      · rfl

/-- A stream that fails raises STREAM_HALTED(PROFILE_MISMATCH) (R9, R16). -/
theorem Body.examineOne_raises (h : acc.1.stream i = some st) (fails : st.fails peer reservable acc.2 i = true) :
    ∃ e ∈ (Body.examineOne peer reservable acc i).1.events, e.source = some i ∧
      e.detail = .streamHalted .profileMismatch := by
  rw [Body.examineOne_some h, (Stream.fails_iff.mp fails).2, if_neg Bool.false_ne_true, if_pos fails]
  exact exists_mem_raiseInto ..

/-- The events of the other streams stay. -/
theorem Body.examineOne_keeps_event {e : Event} (mem : e ∈ acc.1.events) (other : e.source ≠ some i) :
    e ∈ (Body.examineOne peer reservable acc i).1.events := by
  cases opened : acc.1.stream i with
  | none => rwa [Body.examineOne_none opened]
  | some st =>
    rw [Body.examineOne_some opened]
    split
    · exact (Body.put_events_of_buffers (new := { st with profileChecked := true }) rfl i acc.1).symm ▸ mem
    · split
      · refine mem_raiseInto_of_source_ne ?_ other
        exact (Body.put_events_of_buffers (new := st.beginHalt .profileMismatch) rfl i acc.1).symm ▸ mem
      · exact mem

/-! ### The examination in increasing stream number -/

/-- The body and the sum once the streams below `k` have been examined. -/
def Body.examinedBelow (peer : List Byte) (reservable : Nat) (b : Body) (k : Nat) : Body × Nat :=
  ((List.finRange 16).take k).foldl (Body.examineOne peer reservable) (b, 0)

variable {b : Body}

theorem Body.examinedBelow_succ (i : StreamId) : b.examinedBelow peer reservable (i.val + 1) =
    Body.examineOne peer reservable (b.examinedBelow peer reservable i.val) i := by
  have take_succ : (List.finRange 16).take (i.val + 1) = (List.finRange 16).take i.val ++ [i] := by
    rw [List.take_succ_eq_append_getElem (by simp)]
    simp
  rw [Body.examinedBelow, take_succ, List.foldl_append]
  rfl

theorem Body.examine_eq : b.examine peer reservable = (b.examinedBelow peer reservable 16).1 := rfl

/-- What holds once stream `i` has been examined, and is kept by the examination of the others, holds at the end. -/
theorem Body.examinedBelow_later {P : Body × Nat → Prop} (i : StreamId)
    (start : P (b.examinedBelow peer reservable (i.val + 1)))
    (keeps : ∀ (j : StreamId) acc, j ≠ i → P acc → P (Body.examineOne peer reservable acc j)) :
    P (b.examinedBelow peer reservable 16) := by
  have upTo : ∀ k, i.val + 1 ≤ k → k ≤ 16 → P (b.examinedBelow peer reservable k) := by
    intro k low
    induction k, low using Nat.le_induction with
    | base => exact fun _ => start
    | succ k low ih =>
      intro high
      have step := Body.examinedBelow_succ (b := b) (peer := peer) (reservable := reservable) ⟨k, high⟩
      rw [step]
      exact keeps ⟨k, high⟩ _ (fun h => absurd (congrArg Fin.val h) (by simp; omega)) (ih (by omega))
  exact upTo 16 (by omega) le_rfl

/-- What holds of the body and is kept by every examination holds below each stream. -/
theorem Body.examinedBelow_invariant {P : Body × Nat → Prop} (start : P (b, 0)) (k : Nat)
    (keeps : ∀ (j : StreamId) acc, j.val < k → P acc → P (Body.examineOne peer reservable acc j)) (high : k ≤ 16) :
    P (b.examinedBelow peer reservable k) := by
  induction k with
  | zero => exact start
  | succ k ih =>
    have step := Body.examinedBelow_succ (b := b) (peer := peer) (reservable := reservable) ⟨k, high⟩
    rw [step]
    exact keeps ⟨k, high⟩ _ (Nat.lt_succ_self k) (ih (fun j acc h => keeps j acc (Nat.lt_succ_of_lt h)) (by omega))

/-- A stream is as it was until its turn comes. -/
theorem Body.examinedBelow_stream_self (i : StreamId) :
    (b.examinedBelow peer reservable i.val).1.stream i = b.stream i :=
  Body.examinedBelow_invariant (P := fun acc => acc.1.stream i = b.stream i) rfl i.val
    (fun _ _ less h => (Body.examineOne_stream_ne (ne_of_gt less)).trans h) i.isLt.le

/-- A stream stays as its turn has left it. -/
theorem Body.examine_stream (i : StreamId) :
    (b.examine peer reservable).stream i = (b.examinedBelow peer reservable (i.val + 1)).1.stream i := by
  rw [Body.examine_eq]
  exact Body.examinedBelow_later
    (P := fun acc => acc.1.stream i = (b.examinedBelow peer reservable (i.val + 1)).1.stream i) i rfl
    fun _ _ other h => (Body.examineOne_stream_ne other.symm).trans h

theorem Body.examine_stream_none (h : b.stream i = none) : (b.examine peer reservable).stream i = none ∧
    (b.examinedBelow peer reservable (i.val + 1)).2 = (b.examinedBelow peer reservable i.val).2 := by
  have shut := (Body.examinedBelow_stream_self (peer := peer) (reservable := reservable) i).trans h
  rw [Body.examine_stream, Body.examinedBelow_succ, Body.examineOne_none shut]
  exact ⟨shut, rfl⟩

theorem Body.examine_stream_some (h : b.stream i = some st) :
    (b.examine peer reservable).stream i =
      some (st.examined peer reservable (b.examinedBelow peer reservable i.val).2 i) ∧
    (b.examinedBelow peer reservable (i.val + 1)).2 = (b.examinedBelow peer reservable i.val).2 +
      if st.passes peer reservable (b.examinedBelow peer reservable i.val).2 i then st.share else 0 := by
  have opened := (Body.examinedBelow_stream_self (peer := peer) (reservable := reservable) i).trans h
  rw [Body.examine_stream, Body.examinedBelow_succ]
  exact ⟨Body.examineOne_stream_self opened, Body.examineOne_sum opened⟩

theorem Body.examine_raises (h : b.stream i = some st)
    (fails : st.fails peer reservable (b.examinedBelow peer reservable i.val).2 i = true) :
    ∃ e ∈ (b.examine peer reservable).events, e.source = some i ∧ e.detail = .streamHalted .profileMismatch := by
  rw [Body.examine_eq]
  refine Body.examinedBelow_later (P := fun acc => ∃ e ∈ acc.1.events, e.source = some i ∧
    e.detail = .streamHalted .profileMismatch) i ?_ ?_
  · rw [Body.examinedBelow_succ]
    exact Body.examineOne_raises ((Body.examinedBelow_stream_self i).trans h) fails
  · rintro j acc other ⟨e, mem, source, detail⟩
    exact ⟨e, Body.examineOne_keeps_event mem (by rw [source]; simpa using other.symm), source, detail⟩

theorem Body.examine_table : (b.examine peer reservable).table = b.table := by
  rw [Body.examine_eq]
  exact Body.examinedBelow_invariant (P := fun acc => acc.1.table = b.table) rfl 16
    (fun _ _ _ h => Body.examineOne_table.trans h) le_rfl

/-! ### The reserved sum after the examination -/

/-- What stream `i` adds to the reserved sum (R108). -/
def Body.reservedBy (b : Body) (i : StreamId) : Nat :=
  match b.stream i with
  | some st => if st.holdsReservation then st.reservation else 0
  | none => 0

theorem Body.reservedSum_eq (b : Body) : b.reservedSum = ((List.finRange 16).map b.reservedBy).sum := by
  rw [Body.reservedSum, toList_eq_map_finRange, List.map_map]
  rfl

theorem sum_map_finRange {n : Nat} {c : Fin n → Nat} {sum : Nat → Nat} (zero : sum 0 = 0)
    (succ : ∀ i : Fin n, sum (i.val + 1) = sum i.val + c i) : ((List.finRange n).map c).sum = sum n := by
  induction n with
  | zero => exact zero.symm
  | succ n ih =>
    have below := ih (c := fun i => c i.castSucc) fun i => succ i.castSucc
    have last := succ (Fin.last n)
    rw [List.finRange_succ_last, List.map_append, List.sum_append, List.map_map, Function.comp_def, below]
    simpa using last.symm

/-- A stream holds its reservation after the examination if it has passed, and else none (R7, R16). -/
theorem Stream.examined_reserved (sum : Nat) :
    (if (st.examined peer reservable sum i).holdsReservation then (st.examined peer reservable sum i).reservation
      else 0) = if st.passes peer reservable sum i then st.share else 0 := by
  by_cases passes : st.passes peer reservable sum i = true
  · have may : st.mayHalt = true := by
      simp only [Stream.passes, Bool.and_eq_true, and_assoc] at passes
      exact passes.1
    have holds : Stream.holdsReservation { st with profileChecked := true } = st.isScheduledOut := by
      show (st.isScheduledOut && st.mayHalt) = _
      rw [may, Bool.and_true]
    rw [Stream.examined, if_pos passes, if_pos passes, holds]
    rfl
  · have holds_none : (st.examined peer reservable sum i).mayHalt = false := by
      rw [Stream.examined, if_neg passes]
      by_cases fails : st.fails peer reservable sum i = true
      · rw [if_pos fails]; rfl
      · rw [if_neg fails]
        simpa [Stream.fails, passes] using fails
    rw [Stream.holdsReservation, holds_none, Bool.and_false, if_neg Bool.false_ne_true, if_neg passes]

theorem Body.examinedBelow_sum_succ (i : StreamId) : (b.examinedBelow peer reservable (i.val + 1)).2 =
    (b.examinedBelow peer reservable i.val).2 + (b.examine peer reservable).reservedBy i := by
  cases h : b.stream i with
  | none =>
    obtain ⟨shut, sum⟩ := Body.examine_stream_none (peer := peer) (reservable := reservable) h
    rw [sum, Body.reservedBy, shut]
    rfl
  | some st =>
    obtain ⟨examined, sum⟩ := Body.examine_stream_some (peer := peer) (reservable := reservable) h
    rw [sum, Body.reservedBy, examined, ← Stream.examined_reserved]

/-- The sum of the shares never exceeds the reservable amount (R16). -/
theorem Body.examinedBelow_sum_le : (b.examinedBelow peer reservable 16).2 ≤ reservable := by
  refine Body.examinedBelow_invariant (P := fun acc => acc.2 ≤ reservable) (Nat.zero_le _) 16 ?_ le_rfl
  intro j acc _ le
  cases h : acc.1.stream j with
  | none => rwa [Body.examineOne_none h]
  | some st =>
    rw [Body.examineOne_sum h]
    split
    · next passes =>
      have fits : st.isScheduledOut = false ∨ acc.2 + st.share ≤ reservable := by
        simpa [Stream.passes] using (Bool.and_eq_true_iff.mp passes).2
      rcases fits with free | fits
      · simpa [Stream.share, free] using le
      · exact fits
    · exact le

theorem Body.examine_reservedSum_le : (b.examine peer reservable).reservedSum ≤ reservable := by
  rw [Body.reservedSum_eq, sum_map_finRange (sum := fun k => (b.examinedBelow peer reservable k).2) rfl
    Body.examinedBelow_sum_succ]
  exact Body.examinedBelow_sum_le

/-! ### Passing, as the rule states it -/

theorem Stream.isScheduledOut_iff : st.isScheduledOut = true ↔ st.cls = .scheduled ∧ st.dir = .outbound := by
  simp [Stream.isScheduledOut]

theorem Stream.share_of_reserves (reserves : st.cls = .scheduled ∧ st.dir = .outbound) :
    st.share = st.perCycle * (st.maxLen + 12) := if_pos (Stream.isScheduledOut_iff.mpr reserves)

theorem Stream.share_of_not_reserves (free : ¬(st.cls = .scheduled ∧ st.dir = .outbound)) : st.share = 0 :=
  if_neg (mt Stream.isScheduledOut_iff.mp free)

theorem Stream.passes_iff {sum : Nat} (may : st.mayHalt = true) : st.passes peer reservable sum i = true ↔
    peerAllows (some peer) i st = true ∧
      (st.cls = .scheduled ∧ st.dir = .outbound → sum + st.perCycle * (st.maxLen + 12) ≤ reservable) := by
  rw [Stream.passes, may, Bool.true_and, Bool.and_eq_true]
  refine and_congr_right fun _ => ?_
  by_cases reserves : st.cls = .scheduled ∧ st.dir = .outbound
  · simp [Stream.isScheduledOut_iff.mpr reserves, Stream.share_of_reserves reserves, reserves]
  · have free : st.isScheduledOut = false := by simpa using mt Stream.isScheduledOut_iff.mp reserves
    simp [free, reserves]

end Examination

/-! ### The event that reaches UP -/

theorem Body.modifyAll_stream_of_buffers {f : Stream → Stream} (h : ∀ st, (f st).buffers = st.buffers) (b : Body)
    (i : StreamId) : (b.modifyAll f).stream i = (b.stream i).map f := by
  rw [Body.modifyAll_stream]
  exact congrArg (Option.map · _) (funext fun st => Stream.stored_of_buffers (h st))

theorem Body.modifyAll_events_of_buffers {f : Stream → Stream} (h : ∀ st, (f st).buffers = st.buffers) (b : Body) :
    (b.modifyAll f).events = b.events := by
  refine foldl_keeps (fun b => b.events) (fun b i => ?_) _ b
  cases opened : b.stream i with
  | none => rw [Body.modify_none opened]
  | some st => rw [Body.modify_some opened]; exact Body.put_events_of_buffers (h st) i b

theorem Body.modifyAll_blocks (f : Stream → Stream) (b : Body) : (b.modifyAll f).blocks = b.blocks :=
  foldl_keeps (fun b => b.blocks) (fun b i => Body.modify_blocks i f b) _ b

theorem Body.modifyAll_table (f : Stream → Stream) (b : Body) : (b.modifyAll f).table = b.table :=
  foldl_keeps (fun b => b.table) (fun b i => Body.modify_table i f b) _ b

/-- The body in the event in which the link reaches UP, before the examination: no HELLO and no chunk is due any more,
LINK_STATE(UP) is raised, and the sequence states, the round-robin position and the notice queue take their initial
values (R2, R113, R142). -/
def Body.calledUp (b : Body) : Body :=
  let called := ((b.dropDue fun f => f.isHello || f.isChunk).raise none (.linkState .up none)).modifyAll Stream.resetSeq
  { called with lt := { called.lt with roundRobin := 15, notices := [] } }

theorem Body.calledUp_stream (b : Body) (i : StreamId) : b.calledUp.stream i = (b.stream i).map Stream.resetSeq := by
  dsimp only [Body.calledUp, Body.stream]
  exact (Body.modifyAll_stream_of_buffers Stream.resetSeq_buffers _ i).trans rfl

theorem Body.calledUp_events (b : Body) : b.calledUp.events = raiseInto none (.linkState .up none) b.events := by
  dsimp only [Body.calledUp]
  rw [Body.modifyAll_events_of_buffers Stream.resetSeq_buffers, Body.raise_events, Body.dropDue_events]

theorem Body.calledUp_blocks (b : Body) : b.calledUp.blocks = b.blocks := by
  dsimp only [Body.calledUp]
  rw [Body.modifyAll_blocks, Body.raise_blocks]
  rfl

theorem Body.calledUp_table (b : Body) : b.calledUp.table = b.table := by
  dsimp only [Body.calledUp]
  rw [Body.modifyAll_table, Body.raise_table, Body.dropDue_table]

theorem State.reachUp_eq (n : CycleNum) (s : State) : s.reachUp n = State.startCycle n { s with
    bp := s.bp.reachUp
    ce := s.ce.reachUp s.now (s.ce.period.getD s.ce.inForce)
    body := (s.body.calledUp.examine ((s.bp.incoming.map Incoming.bytes).getD [])
      (s.ce.period.getD s.ce.inForce).reservable).completePending s.bp.pendingLinkUp .ok } := rfl

theorem Body.completePending_eq (pending : Option Nat) (status : Status) (b : Body) :
    b.completePending pending status = { b with
      table := b.table.map fun e => if e.held = none ∧ pending = some e.id then e.complete status 0 else e } := by
  cases pending with
  | none => simp [Body.completePending]
  | some id => simp only [Body.completePending, Body.completeId, Body.completeIf, beq_iff_eq, Option.some.injEq,
    eq_comm (a := id)]

/-- Settles O51: the sum is what the streams examined so far have been given. -/
theorem reachingUpExaminesTheStreams : Obligations.ReachingUpExaminesTheStreams := by
  refine ⟨?examination, ?reachUp⟩
  case examination =>
    intro b peer reservable
    refine ⟨fun k => (b.examinedBelow peer reservable k).2, rfl, Body.examine_reservedSum_le, fun i =>
      ⟨Body.examine_stream_none, fun st opened => ?_⟩⟩
    obtain ⟨examined, sum⟩ := Body.examine_stream_some (peer := peer) (reservable := reservable) opened
    refine ⟨_, examined, fun stays => ?_, fun may passes => ?_, fun may stops => ?_⟩
    · have passes : st.passes peer reservable (b.examinedBelow peer reservable i.val).2 i = false := by
        simp [Stream.passes, stays]
      exact ⟨by simp [Stream.examined, passes, Stream.fails, stays], by simp [sum, passes]⟩
    · have passed := (Stream.passes_iff may).mpr passes
      refine ⟨if_pos passed, fun reserves => ?_, fun free => ?_⟩
      · simp only [sum, if_pos passed, Stream.share_of_reserves reserves]
      · simp only [sum, if_pos passed, Stream.share_of_not_reserves free, Nat.add_zero]
    · have stopped := mt (Stream.passes_iff may).mp stops
      have fails := Stream.fails_iff.mpr ⟨may, Bool.eq_false_iff.mpr stopped⟩
      refine ⟨(if_neg stopped).trans (if_pos fails), ?_, Body.examine_raises opened fails⟩
      simp only [sum, if_neg stopped, Nat.add_zero]
  case reachUp =>
    intro s n p period peer leader
    have engine : s.ce.reachUp s.now p = { s.ce with
        inForce := p, sync := .locked, coasting := 0, echoMiss := if leader then 0 else s.ce.echoMiss
        echoSeen := if leader then some false else none
        periodEnds := if leader then some (s.now + p.us) else none
        expected := if leader then none else some (s.now + p.us)
        firstMarker := leader && s.ce.firstMarker } := by
      have marker : (if leader then s.ce.firstMarker else false) = (leader && s.ce.firstMarker) := by
        cases leader <;> rfl
      rw [← marker]
      rfl
    refine ⟨s.body.calledUp, fun i => (s.body.calledUp_stream i).trans rfl, s.body.calledUp_events, rfl, rfl,
      s.body.calledUp_blocks, s.body.calledUp_table, ?_⟩
    rw [State.reachUp_eq, period, Option.getD_some, Body.completePending_eq, Body.examine_table, Body.calledUp_table,
      engine]
    rfl

end Sys2Proof.Machine
end

section
/-! SUPPORT. The law of a stream's packet buffers, read buffer by buffer: what one packet's move from state to state keeps
of it (2.2, R29, R31, R32, R36, R40). -/

namespace Sys2Proof.Machine

open Sys2Proof

/-! ### The kinds of buffer states the law speaks of -/

/-- FILLING or RECEIVING: a packet that is still growing (R32). -/
def Buffer.isGrowing (b : Buffer) : Bool := b.isFilling || b.isReceiving

/-- SENT or DRAINING: a packet that stands at the head of its queue (R36, R40). -/
def Buffer.isLeading (b : Buffer) : Bool := b.isSent || b.isDraining

/-- The buffer's state with its bytes alone: what the law of the buffers speaks of. -/
def Buffer.plain : Buffer → Buffer
  | .free => .free
  | .filling d => .filling d
  | .committed d _ => .committed d false
  | .sent d _ _ _ => .sent d false false .due
  | .receiving d => .receiving d
  | .held d _ _ _ _ => .held d false (.bit false) 0 false
  | .draining d _ _ _ _ _ _ => .draining d false (.bit false) 0 false 0 0

@[simp] theorem Buffer.plain_count (b : Buffer) : b.plain.count = b.count := by cases b <;> rfl
@[simp] theorem Buffer.plain_suits (dir : Direction) (b : Buffer) : b.plain.suits dir = b.suits dir := by
  cases b <;> rfl
@[simp] theorem Buffer.plain_isGrowing (b : Buffer) : b.plain.isGrowing = b.isGrowing := by cases b <;> rfl
@[simp] theorem Buffer.plain_isLeading (b : Buffer) : b.plain.isLeading = b.isLeading := by cases b <;> rfl
@[simp] theorem Buffer.plain_isQueued (b : Buffer) : b.plain.isQueued = b.isQueued := by cases b <;> rfl
@[simp] theorem Buffer.plain_isQueuedOut (b : Buffer) : b.plain.isQueuedOut = b.isQueuedOut := by cases b <;> rfl
@[simp] theorem Buffer.plain_isReceiving (b : Buffer) : b.plain.isReceiving = b.isReceiving := by cases b <;> rfl

/-- A FILLING, COMMITTED or SENT buffer is of an OUT stream (2.2). -/
theorem Buffer.outbound_of_suits {dir : Direction} {b : Buffer} (suits : b.suits dir = true)
    (h : b.isOutbound = true) : dir = .outbound := by
  cases dir
  · rfl
  · cases b <;> simp [Buffer.suits, Buffer.isOutbound, Buffer.isFree, Buffer.isFilling, Buffer.isCommitted,
      Buffer.isSent, Buffer.isReceiving, Buffer.isKept, Buffer.isHeld, Buffer.isDraining] at suits h

/-- A RECEIVING, HELD or DRAINING buffer is of an IN stream (2.2). -/
theorem Buffer.inbound_of_suits {dir : Direction} {b : Buffer} (suits : b.suits dir = true)
    (h : b.isReceiving = true ∨ b.isKept = true) : dir = .inbound := by
  cases dir
  · cases b <;> simp [Buffer.suits, Buffer.isFree, Buffer.isFilling, Buffer.isQueuedOut, Buffer.isCommitted,
      Buffer.isSent, Buffer.isReceiving, Buffer.isKept, Buffer.isHeld, Buffer.isDraining] at suits h
  · rfl

/-- A RECEIVING buffer is on no queue (2.2). -/
theorem Buffer.unqueued_of_isReceiving {b : Buffer} (h : b.isReceiving = true) :
    b.isQueued = false ∧ b.isQueuedOut = false ∧ b.isKept = false ∧ b.isOutbound = false := by
  cases b
  case receiving => exact ⟨rfl, rfl, rfl, rfl⟩
  all_goals cases h

/-! ### The law of the buffers, index by index -/

/-- The law of the packet buffers of one stream, for the buffer of each index; an index beyond the buffers is FREE. -/
structure PacketLaw (dir : Direction) (maxLen : Nat) (buffer : Nat → Buffer) (queue : List Nat) : Prop where
  suits : ∀ k, (buffer k).suits dir = true
  fits : ∀ k, (buffer k).count ≤ maxLen
  oneGrowing : ∀ j k, (buffer j).isGrowing = true → (buffer k).isGrowing = true → j = k
  queueNodup : queue.Nodup
  queued : ∀ k, k ∈ queue ↔ (buffer k).isQueued = true
  head : ∀ k, (buffer k).isLeading = true → queue.head? = some k

/-- The lists of the other direction are empty (3.2, 4.2). -/
def Stream.oneWay (st : Stream) : Prop :=
  (st.dir = .outbound → st.receives = [] ∧ st.writes = []) ∧ (st.dir = .inbound → st.sends = [] ∧ st.reads = [])

/-- At most one element satisfies `p` when any two places where it holds are the same. -/
theorem countP_le_one_iff {α : Type} {p : α → Bool} {d : α} (hd : p d = false) (l : List α) :
    l.countP p ≤ 1 ↔ ∀ j k, p (l.getD j d) = true → p (l.getD k d) = true → j = k := by
  induction l with
  | nil => simp [hd]
  | cons a l ih =>
    have tail : (∀ j k, p ((a :: l).getD j d) = true → p ((a :: l).getD k d) = true → j = k) ↔
        (p a = true → ∀ k, p (l.getD k d) = false) ∧
          ∀ j k, p (l.getD j d) = true → p (l.getD k d) = true → j = k := by
      refine ⟨fun h => ⟨fun ha k => ?_, fun j k hj hk => ?_⟩, fun ⟨first, rest⟩ j k hj hk => ?_⟩
      · by_contra hk
        exact absurd (h 0 (k + 1) ha (by simpa using hk)) (by omega)
      · exact Nat.succ.inj (h (j + 1) (k + 1) hj hk)
      · match j, k with
        | 0, 0 => rfl
        | 0, k + 1 => exact absurd hk (by simpa using first hj k)
        | j + 1, 0 => exact absurd hj (by simpa using first hk j)
        | j + 1, k + 1 => exact congrArg _ (rest j k hj hk)
    rw [tail, ← ih, List.countP_cons]
    by_cases ha : p a = true
    · have none_iff : l.countP p = 0 ↔ ∀ k, p (l.getD k d) = false := by
        rw [List.countP_eq_zero]
        refine ⟨fun h k => ?_, fun h x hx => ?_⟩
        · rw [List.getD_eq_getElem?_getD]
          cases e : l[k]? with
          | none => exact hd
          | some x => simpa using h x (List.mem_of_getElem? e)
        · obtain ⟨k, hk, rfl⟩ := List.getElem_of_mem hx
          simpa [List.getD_eq_getElem?_getD, hk] using h k
      rw [if_pos ha, ← none_iff]
      simp only [ha, true_imp_iff]
      omega
    · simp [ha]

theorem Stream.forall_mem_buffers_iff {P : Buffer → Prop} (free : P .free) (st : Stream) :
    (∀ b ∈ st.buffers, P b) ↔ ∀ k, P (st.buffer k) := by
  refine ⟨fun h k => ?_, fun h b hb => ?_⟩
  · rcases st.buffer_mem_or_free k with mem | e
    · exact h _ mem
    · exact e ▸ free
  · obtain ⟨k, hk, rfl⟩ := List.getElem_of_mem hb
    simpa [Stream.buffer, List.getD_eq_getElem?_getD, hk] using h k

/-- The law of a stream's buffers is the law of each of its buffers. -/
theorem bufferLaw_iff (st : Stream) :
    BufferLaw st ↔ st.inRange ∧ PacketLaw st.dir st.maxLen st.buffer st.queue ∧ st.oneWay := by
  have suits := st.forall_mem_buffers_iff (P := fun b => b.suits st.dir = true) (by cases st.dir <;> rfl)
  have fits := st.forall_mem_buffers_iff (P := fun b => b.count ≤ st.maxLen) (Nat.zero_le _)
  have growing := countP_le_one_iff (p := Buffer.isGrowing) (d := .free) rfl st.buffers
  constructor
  · intro h
    refine ⟨h.inRange, ⟨suits.mp h.suits, fits.mp h.fits, growing.mp h.oneFilling, h.queueNodup, h.queued,
      fun k leads => h.head k (by simpa [Buffer.isLeading] using leads)⟩, ?_⟩
    have lists := h.ofDirection
    constructor <;> intro dir <;> simpa only [dir] using lists
  · rintro ⟨range, packets, out, into⟩
    have alone : ∀ p : Buffer → Bool, p .free = false → (∀ b, p b = true → b.isLeading = true) →
        st.buffers.countP p ≤ 1 := fun p free leads =>
      (countP_le_one_iff free _).mpr fun j k hj hk =>
        Option.some.inj ((packets.head j (leads _ hj)).symm.trans (packets.head k (leads _ hk)))
    refine ⟨range, suits.mpr packets.suits, fits.mpr packets.fits, growing.mpr packets.oneGrowing,
      alone _ rfl fun b h => by simp [Buffer.isLeading, h], alone _ rfl fun b h => by simp [Buffer.isLeading, h],
      packets.queueNodup, packets.queued, fun k h => packets.head k (by simpa [Buffer.isLeading] using h), ?_⟩
    cases dir : st.dir
    · exact out dir
    · exact into dir

/-! ### The moves of a packet -/

section Moves

variable {dir : Direction} {maxLen : Nat} {buffer : Nat → Buffer} {queue : List Nat}

/-- The law speaks of each buffer's state and bytes alone. -/
theorem PacketLaw.of_plain (h : PacketLaw dir maxLen buffer queue) {buffer' : Nat → Buffer}
    (plain : ∀ k, (buffer' k).plain = (buffer k).plain) : PacketLaw dir maxLen buffer' queue where
  suits k := by rw [← Buffer.plain_suits, plain, Buffer.plain_suits]; exact h.suits k
  fits k := by rw [← Buffer.plain_count, plain, Buffer.plain_count]; exact h.fits k
  oneGrowing j k := by
    rw [← Buffer.plain_isGrowing, plain, ← Buffer.plain_isGrowing (buffer' k), plain]
    simpa using h.oneGrowing j k
  queueNodup := h.queueNodup
  queued k := by rw [← Buffer.plain_isQueued, plain, Buffer.plain_isQueued]; exact h.queued k
  head k := by rw [← Buffer.plain_isLeading, plain, Buffer.plain_isLeading]; exact h.head k

/-- A buffer takes another state in its place: on the queue as before. -/
theorem PacketLaw.replace (h : PacketLaw dir maxLen buffer queue) (k : Nat) (b : Buffer) (suits : b.suits dir = true)
    (fits : b.count ≤ maxLen) (queued : b.isQueued = (buffer k).isQueued)
    (grows : b.isGrowing = true → ∀ j, j ≠ k → (buffer j).isGrowing = false)
    (leads : b.isLeading = true → queue.head? = some k) : PacketLaw dir maxLen (Function.update buffer k b) queue where
  suits j := by by_cases e : j = k <;> simp [e, suits, h.suits]
  fits j := by by_cases e : j = k <;> simp [e, fits, h.fits]
  oneGrowing i j hi hj := by
    by_cases ei : i = k <;> by_cases ej : j = k
    · rw [ei, ej]
    · subst ei
      simp only [Function.update_self, Function.update_of_ne ej] at hi hj
      exact absurd hj (by simp [grows hi j ej])
    · subst ej
      simp only [Function.update_self, Function.update_of_ne ei] at hi hj
      exact absurd hi (by simp [grows hj i ei])
    · simp only [Function.update_of_ne ei, Function.update_of_ne ej] at hi hj
      exact h.oneGrowing i j hi hj
  queueNodup := h.queueNodup
  queued j := by by_cases e : j = k <;> simp [e, queued, h.queued]
  head j hj := by
    by_cases e : j = k
    · subst e
      exact leads (by simpa using hj)
    · exact h.head j (by simpa [e] using hj)

/-- A buffer that is on no queue joins the tail with a whole packet. -/
theorem PacketLaw.append (h : PacketLaw dir maxLen buffer queue) {k : Nat} {b : Buffer} (suits : b.suits dir = true)
    (fits : b.count ≤ maxLen) (out : (buffer k).isQueued = false) (queued : b.isQueued = true)
    (whole : b.isGrowing = false) (waits : b.isLeading = false) :
    PacketLaw dir maxLen (Function.update buffer k b) (queue ++ [k]) where
  suits j := by by_cases e : j = k <;> simp [e, suits, h.suits]
  fits j := by by_cases e : j = k <;> simp [e, fits, h.fits]
  oneGrowing i j hi hj := by
    by_cases ei : i = k
    · simp [ei, whole] at hi
    · by_cases ej : j = k
      · simp [ej, whole] at hj
      · simp only [Function.update_of_ne ei, Function.update_of_ne ej] at hi hj
        exact h.oneGrowing i j hi hj
  queueNodup := by
    have absent : k ∉ queue := fun mem => by simp [(h.queued k).mp mem] at out
    exact List.nodup_append.mpr ⟨h.queueNodup, by simp, by
      rintro a mem _ last rfl
      exact absent (List.mem_singleton.mp last ▸ mem)⟩
  queued j := by by_cases e : j = k <;> simp [e, queued, h.queued]
  head j hj := by
    by_cases e : j = k
    · simp [e, waits] at hj
    · simp [h.head j (by simpa [e] using hj)]

/-- The buffers of some indices become FREE and leave the queue; the order of the others stays (R31). -/
theorem PacketLaw.release (h : PacketLaw dir maxLen buffer queue) (p : Nat → Bool) :
    PacketLaw dir maxLen (fun k => if p k then .free else buffer k) (queue.filter (!p ·)) where
  suits k := by
    split
    · cases dir <;> rfl
    · exact h.suits k
  fits k := by
    split
    · exact Nat.zero_le _
    · exact h.fits k
  oneGrowing j k hj hk := by
    cases pj : p j <;> cases pk : p k <;> simp only [pj, pk, if_true, if_false, Bool.false_eq_true] at hj hk
    · exact h.oneGrowing j k hj hk
    · cases hk
    · cases hj
    · cases hj
  queueNodup := h.queueNodup.filter _
  queued k := by
    rw [List.mem_filter, h.queued]
    cases p k <;> simp [Buffer.isQueued, Buffer.isQueuedOut, Buffer.isKept, Buffer.isCommitted, Buffer.isSent,
      Buffer.isHeld, Buffer.isDraining]
  head k hk := by
    cases pk : p k
    · have first := h.head k (by simpa [pk] using hk)
      obtain ⟨rest, rfl⟩ := List.head?_eq_some_iff.mp first
      simp [pk]
    · rw [if_pos pk] at hk
      cases hk

end Moves

end Sys2Proof.Machine
end

section
/-! SUPPORT. What every change of a stream but its opening, its release and the arrival of a frame keeps: its parameters,
the law of its buffers, which of them are RECEIVING, and that a stream without its reservation takes none up (R7, R32). -/

namespace Sys2Proof.Machine

open Sys2Proof

/-! ### Changes that keep the laws -/

/-- The parameters that the laws of the store and the reservations read, with the buffer count (1.1). -/
def Stream.params (st : Stream) : Direction × StreamClass × Nat × Nat × Nat :=
  (st.dir, st.cls, st.maxLen, st.perCycle, st.buffers.length)

/-- A buffer is RECEIVING as before, and one on the committed queue stays there or becomes FREE. -/
structure Buffer.Follows (b b' : Buffer) : Prop where
  receiving : b'.isReceiving = b.isReceiving
  queuedOut : b.isQueuedOut = true → b'.isQueuedOut = true ∨ b' = .free

/-- A stream HALTING or HALTED has a halt cause (1.1). -/
def Stream.haltCaused (st : Stream) : Prop := st.state = .halting ∨ st.state = .halted → st.cause.isSome = true

/-- The change keeps the law of the stream's buffers. -/
structure Stream.KeepsStore (st st' : Stream) : Prop where
  params : st'.params = st.params
  law : BufferLaw st → BufferLaw st'
  follows : BufferLaw st → ∀ k, (st.buffer k).Follows (st'.buffer k)

/-- The change keeps the law of the stream's buffers and takes up no reservation. -/
structure Stream.Keeps (st st' : Stream) : Prop extends st.KeepsStore st' where
  life : st.haltCaused → st'.haltCaused ∧ (st'.mayHalt = true → st.mayHalt = true)

theorem Buffer.Follows.refl (b : Buffer) : b.Follows b := ⟨rfl, .inl⟩

theorem Buffer.Follows.of_plain {b b' : Buffer} (h : b'.plain = b.plain) : b.Follows b' where
  receiving := by rw [← Buffer.plain_isReceiving, h, Buffer.plain_isReceiving]
  queuedOut := by rw [← Buffer.plain_isQueuedOut b', h, Buffer.plain_isQueuedOut]; exact .inl

section

variable {st st' st'' : Stream}

theorem Stream.plain_buffer (h : st'.buffers.map Buffer.plain = st.buffers.map Buffer.plain) (k : Nat) :
    (st'.buffer k).plain = (st.buffer k).plain := by
  have plain_at : ∀ x : Stream, (x.buffer k).plain = ((x.buffers.map Buffer.plain)[k]?).getD .free := by
    intro x
    rw [Stream.buffer, List.getD_eq_getElem?_getD, List.getElem?_map]
    cases x.buffers[k]? <;> rfl
  rw [plain_at, plain_at, h]

/-- A change that moves no packet keeps the law of the buffers. -/
theorem Stream.KeepsStore.of_plain (buffers : st'.buffers.map Buffer.plain = st.buffers.map Buffer.plain)
    (same : (st'.queue, st'.dir, st'.cls, st'.maxLen, st'.perCycle) = (st.queue, st.dir, st.cls, st.maxLen, st.perCycle))
    (lists : BufferLaw st → st'.oneWay) : st.KeepsStore st' := by
  obtain ⟨queue, dir, cls, maxLen, perCycle⟩ := by simpa only [Prod.mk.injEq] using same
  have length : st'.buffers.length = st.buffers.length := by simpa using congrArg List.length buffers
  refine ⟨by simp only [Stream.params, dir, cls, maxLen, perCycle, length], fun h => ?_,
    fun _ k => .of_plain (Stream.plain_buffer buffers k)⟩
  obtain ⟨range, packets, -⟩ := (bufferLaw_iff st).mp h
  refine (bufferLaw_iff st').mpr ⟨?_, ?_, lists h⟩
  · simpa only [Stream.inRange, maxLen, length] using range
  · rw [dir, maxLen, queue]
    exact packets.of_plain (Stream.plain_buffer buffers)

theorem BufferLaw.oneWay (h : BufferLaw st) : st.oneWay := ((bufferLaw_iff st).mp h).2.2

theorem BufferLaw.packets (h : BufferLaw st) : PacketLaw st.dir st.maxLen st.buffer st.queue :=
  ((bufferLaw_iff st).mp h).2.1

/-- What the life of a stream reads: its state and its halt cause. -/
theorem Stream.KeepsStore.keeps (h : st.KeepsStore st') (life : (st'.state, st'.cause) = (st.state, st.cause)) :
    st.Keeps st' := by
  obtain ⟨state, cause⟩ := by simpa only [Prod.mk.injEq] using life
  refine ⟨h, fun caused => ⟨?_, ?_⟩⟩
  · simpa only [Stream.haltCaused, state, cause] using caused
  · simp only [Stream.mayHalt, state, cause, imp_self]

/-- A change of what neither law reads. -/
theorem Stream.Keeps.of_eq (same : (st'.buffers, st'.queue, st'.dir, st'.cls, st'.maxLen, st'.perCycle, st'.state,
      st'.cause) = (st.buffers, st.queue, st.dir, st.cls, st.maxLen, st.perCycle, st.state, st.cause))
    (lists : BufferLaw st → st'.oneWay) : st.Keeps st' := by
  simp only [Prod.mk.injEq] at same
  obtain ⟨buffers, queue, dir, cls, maxLen, perCycle, state, cause⟩ := same
  exact (Stream.KeepsStore.of_plain (by rw [buffers]) (by rw [queue, dir, cls, maxLen, perCycle]) lists).keeps
    (by rw [state, cause])

/-- A change of neither the packets, the state nor the record lists. -/
theorem Stream.Keeps.aside (same : (st'.buffers, st'.queue, st'.dir, st'.cls, st'.maxLen, st'.perCycle, st'.state,
      st'.cause) = (st.buffers, st.queue, st.dir, st.cls, st.maxLen, st.perCycle, st.state, st.cause))
    (lists : (st'.sends, st'.reads, st'.receives, st'.writes) = (st.sends, st.reads, st.receives, st.writes)) :
    st.Keeps st' := by
  refine .of_eq same fun h => ?_
  simp only [Prod.mk.injEq] at same lists
  simpa only [Stream.oneWay, same, lists] using h.oneWay

theorem Stream.Keeps.refl (st : Stream) : st.Keeps st := .aside rfl rfl

/-- Two changes, of which the second fills no buffer that the first has emptied of a queued packet. -/
theorem Stream.Keeps.trans (h : st.Keeps st') (h' : st'.Keeps st'')
    (stays : BufferLaw st → ∀ k, (st.buffer k).isQueuedOut = true → st'.buffer k = .free → st''.buffer k = .free) :
    st.Keeps st'' where
  params := h'.params.trans h.params
  law l := h'.law (h.law l)
  follows l k := by
    have first := h.follows l k
    have second := h'.follows (h.law l) k
    refine ⟨second.receiving.trans first.receiving, fun queued => ?_⟩
    rcases first.queuedOut queued with kept | gone
    · exact second.queuedOut kept
    · exact .inr (stays l k queued gone)
  life caused := by
    obtain ⟨caused', may⟩ := h.life caused
    obtain ⟨caused'', may'⟩ := h'.life caused'
    exact ⟨caused'', may ∘ may'⟩

/-- A change followed by one that leaves the buffers. -/
theorem Stream.Keeps.then (h : st.Keeps st') (h' : st'.Keeps st'') (same : st''.buffers = st'.buffers) :
    st.Keeps st'' :=
  h.trans h' fun _ k _ gone => by rw [← gone, Stream.buffer, same, Stream.buffer]

/-- A change that leaves the buffers followed by another. -/
theorem Stream.Keeps.before (h : st.Keeps st') (same : st'.buffers = st.buffers) (h' : st'.Keeps st'') :
    st.Keeps st'' :=
  h.trans h' fun _ k queued gone => by
    rw [Stream.buffer, ← same, ← Stream.buffer, gone] at queued
    cases queued

/-! ### The buffers after a change -/

theorem Stream.buffer_of_set {k : Nat} {b : Buffer} (h : st'.buffers = st.buffers.set k b) (hk : k < st.buffers.length) :
    st'.buffer = Function.update st.buffer k b := by
  funext j
  by_cases e : j = k
  · subst e
    simp [Stream.buffer, h, List.getD_eq_getElem?_getD, hk]
  · simp [Stream.buffer, h, List.getD_eq_getElem?_getD, e, Ne.symm e]

theorem Stream.buffer_of_map {p : Buffer → Bool} (h : st'.buffers = st.buffers.map fun b => if p b then .free else b) :
    st'.buffer = fun k => if p (st.buffer k) then .free else st.buffer k := by
  funext k
  simp only [Stream.buffer, h, List.getD_eq_getElem?_getD, List.getElem?_map]
  cases st.buffers[k]? <;> simp

/-- Only an index of the stream's buffers holds a packet. -/
theorem Stream.lt_of_buffer_ne_free {k : Nat} (h : st.buffer k ≠ .free) : k < st.buffers.length := by
  by_contra beyond
  exact h (by simp [Stream.buffer, List.getD_eq_getElem?_getD, beyond])

theorem Stream.buffer_of_findIdx? {p : Buffer → Bool} {k : Nat} (h : st.buffers.findIdx? p = some k) :
    k < st.buffers.length ∧ p (st.buffer k) = true := by
  obtain ⟨hk, hp, -⟩ := List.findIdx?_eq_some_iff_getElem.mp h
  exact ⟨hk, by simpa [Stream.buffer, List.getD_eq_getElem?_getD, hk] using hp⟩

theorem Stream.of_findIdx?_none {p : Buffer → Bool} (free : p .free = false) (h : st.buffers.findIdx? p = none) (k : Nat) :
    p (st.buffer k) = false := by
  rcases st.buffer_mem_or_free k with mem | e
  · exact List.findIdx?_eq_none_iff.mp h _ mem
  · rw [e, free]

/-! ### The moves of a packet -/

/-- A buffer takes another state in its place. -/
theorem Stream.Keeps.replace {k : Nat} {b : Buffer} (hk : k < st.buffers.length)
    (move : BufferLaw st → b.suits st.dir = true ∧ b.count ≤ st.maxLen ∧ b.isQueued = (st.buffer k).isQueued ∧
      (b.isGrowing = true → ∀ j, j ≠ k → (st.buffer j).isGrowing = false) ∧
      (b.isLeading = true → st.queue.head? = some k) ∧ (st.buffer k).Follows b) : st.Keeps (st.setBuffer k b) := by
  have buffer : (st.setBuffer k b).buffer = Function.update st.buffer k b := Stream.buffer_of_set rfl hk
  refine Stream.KeepsStore.keeps ⟨by simp [Stream.params, Stream.setBuffer], fun h => ?_, fun h j => ?_⟩ rfl
  · obtain ⟨suits, fits, queued, grows, leads, -⟩ := move h
    obtain ⟨range, packets, lists⟩ := (bufferLaw_iff st).mp h
    refine (bufferLaw_iff _).mpr ⟨by simpa [Stream.inRange, Stream.setBuffer] using range, ?_, lists⟩
    rw [buffer]
    exact packets.replace k b suits fits queued grows leads
  · rw [buffer]
    by_cases e : j = k
    · subst e
      simpa using (move h).2.2.2.2.2
    · simpa [e] using Buffer.Follows.refl _

/-- A packet's buffer takes another answer, count or mark. -/
theorem Stream.Keeps.same_packet {k : Nat} {b : Buffer} (plain : b.plain = (st.buffer k).plain) :
    st.Keeps (st.setBuffer k b) := by
  refine Stream.KeepsStore.keeps (.of_plain (st' := st.setBuffer k b) ?_ rfl fun h => h.oneWay) rfl
  rw [Stream.setBuffer_buffers, List.map_set, plain]
  refine List.ext_getElem? fun j => ?_
  rw [List.getElem?_set]
  split
  · next e =>
    subst e
    simp only [List.length_map, List.getElem?_map, Stream.buffer, List.getD_eq_getElem?_getD]
    split
    · next h => simp [h]
    · next h => simp [h]
  · rfl

/-- A whole packet joins the tail of the committed queue (R34). -/
theorem Stream.Keeps.commit {k : Nat} {data : List Byte} {mark : Bool} (hk : k < st.buffers.length)
    (move : BufferLaw st → st.dir = .outbound ∧ data.length ≤ st.maxLen ∧
      ((st.buffer k).isFilling = true ∨ st.buffer k = .free)) : st.Keeps (st.commitBuffer k data mark) := by
  have buffer : (st.commitBuffer k data mark).buffer = Function.update st.buffer k (.committed data mark) :=
    Stream.buffer_of_set rfl hk
  have unqueued : BufferLaw st → (st.buffer k).isQueued = false ∧ (st.buffer k).isReceiving = false ∧
      (st.buffer k).isQueuedOut = false := by
    intro h
    rcases (move h).2.2 with fills | free
    · cases e : st.buffer k <;> simp_all [Buffer.isFilling, Buffer.isQueued, Buffer.isQueuedOut, Buffer.isKept,
        Buffer.isCommitted, Buffer.isSent, Buffer.isHeld, Buffer.isDraining, Buffer.isReceiving]
    · rw [free]
      exact ⟨rfl, rfl, rfl⟩
  refine Stream.KeepsStore.keeps ⟨by simp [Stream.params, Stream.commitBuffer], fun h => ?_, fun h j => ?_⟩ rfl
  · obtain ⟨dir, fits, -⟩ := move h
    obtain ⟨range, packets, lists⟩ := (bufferLaw_iff st).mp h
    refine (bufferLaw_iff _).mpr ⟨by simpa [Stream.inRange, Stream.commitBuffer] using range, ?_, lists⟩
    rw [buffer]
    exact packets.append (by rw [dir]; rfl) fits (unqueued h).1 rfl rfl rfl
  · rw [buffer]
    by_cases e : j = k
    · subst e
      simpa using ⟨(unqueued h).2.1.symm, by simp [(unqueued h).2.2]⟩
    · simpa [e] using Buffer.Follows.refl _

/-- Packets become FREE and leave their queue (R31). -/
theorem Stream.Keeps.discard {p : Buffer → Bool} (settled : ∀ b, p b = true → b.isReceiving = false) (st : Stream) :
    st.Keeps (st.discard p) := by
  have buffer : (st.discard p).buffer = fun k => if p (st.buffer k) then .free else st.buffer k :=
    Stream.buffer_of_map rfl
  refine Stream.KeepsStore.keeps ⟨by simp [Stream.params, Stream.discard], fun h => ?_, fun _ k => ?_⟩ rfl
  · obtain ⟨range, packets, lists⟩ := (bufferLaw_iff st).mp h
    refine (bufferLaw_iff _).mpr ⟨by simpa [Stream.inRange, Stream.discard] using range, ?_, lists⟩
    rw [buffer]
    exact packets.release fun k => p (st.buffer k)
  · rw [buffer]
    by_cases hp : p (st.buffer k) = true
    · simpa [hp] using ⟨(settled _ hp).symm, fun _ => .inr rfl⟩
    · simpa [hp] using Buffer.Follows.refl _

theorem Stream.freeBuffer_buffer (k j : Nat) :
    (st.freeBuffer k).buffer j = if j = k then .free else st.buffer j := by
  by_cases e : j = k
  · subst e
    by_cases hj : j < st.buffers.length <;>
      simp [Stream.buffer, Stream.freeBuffer, List.getD_eq_getElem?_getD, hj]
  · simp [e, Ne.symm e, Stream.buffer, Stream.freeBuffer, List.getD_eq_getElem?_getD]

/-- The law holds on when a buffer becomes FREE and leaves its queue, also a RECEIVING one. -/
theorem BufferLaw.freeBuffer {k : Nat} (h : BufferLaw st) : BufferLaw (st.freeBuffer k) := by
  obtain ⟨range, packets, lists⟩ := (bufferLaw_iff st).mp h
  have gone : (st.freeBuffer k).buffer = fun j => if j == k then .free else st.buffer j := by
    funext j
    simp [Stream.freeBuffer_buffer]
  refine (bufferLaw_iff _).mpr ⟨by simpa [Stream.inRange, Stream.freeBuffer] using range, ?_, lists⟩
  rw [gone]
  exact packets.release (· == k)

/-- A buffer that is not RECEIVING becomes FREE and leaves its queue. -/
theorem Stream.Keeps.free {k : Nat} (settled : BufferLaw st → (st.buffer k).isReceiving = false) :
    st.Keeps (st.freeBuffer k) := by
  refine Stream.KeepsStore.keeps ⟨by simp [Stream.params, Stream.freeBuffer], BufferLaw.freeBuffer, fun h j => ?_⟩ rfl
  rw [Stream.freeBuffer_buffer]
  by_cases e : j = k
  · subst e
    rw [if_pos rfl]
    exact ⟨(settled h).symm, fun _ => .inr rfl⟩
  · rw [if_neg e]
    exact .refl _

end

end Sys2Proof.Machine
end

section
/-! SUPPORT. Every internal action of a stream, and every change that a halt, a request, an answer or the end of a memory
transfer makes of one, keeps the law of its buffers and takes up no reservation. -/

namespace Sys2Proof.Machine

open Sys2Proof

variable {st st' : Stream}

/-! ### The record lists -/

theorem Stream.oneWay.mono (h : st.oneWay) (dir : st'.dir = st.dir) (sends : st.sends = [] → st'.sends = [])
    (reads : st.reads = [] → st'.reads = []) (receives : st.receives = [] → st'.receives = [])
    (writes : st.writes = [] → st'.writes = []) : st'.oneWay :=
  ⟨fun out => (h.1 (dir ▸ out)).imp receives writes, fun into => (h.2 (dir ▸ into)).imp sends reads⟩

/-- An OUT stream may have any send records and reads (3.2). -/
theorem Stream.oneWay.of_outbound (dir : st.dir = .outbound) (receives : st.receives = []) (writes : st.writes = []) :
    st.oneWay :=
  ⟨fun _ => ⟨receives, writes⟩, fun into => by simp [dir] at into⟩

/-- An IN stream may have any receive records and writes (4.2). -/
theorem Stream.oneWay.of_inbound (dir : st.dir = .inbound) (sends : st.sends = []) (reads : st.reads = []) :
    st.oneWay :=
  ⟨fun out => by simp [dir] at out, fun _ => ⟨sends, reads⟩⟩

theorem Stream.oneWay.outbound_of_sends (h : st.oneWay) (some_send : st.sends ≠ []) : st.dir = .outbound := by
  cases dir : st.dir
  · rfl
  · exact absurd (h.2 dir).1 some_send

theorem Stream.oneWay.outbound_of_reads (h : st.oneWay) (some_read : st.reads ≠ []) : st.dir = .outbound := by
  cases dir : st.dir
  · rfl
  · exact absurd (h.2 dir).2 some_read

theorem Stream.oneWay.inbound_of_receives (h : st.oneWay) (some_receive : st.receives ≠ []) : st.dir = .inbound := by
  cases dir : st.dir
  · exact absurd (h.1 dir).1 some_receive
  · rfl

/-- A change of the state or the halt cause alone. -/
theorem Stream.Keeps.turn (same : (st'.buffers, st'.queue, st'.dir, st'.cls, st'.maxLen, st'.perCycle) =
      (st.buffers, st.queue, st.dir, st.cls, st.maxLen, st.perCycle))
    (lists : (st'.sends, st'.reads, st'.receives, st'.writes) = (st.sends, st.reads, st.receives, st.writes))
    (life : st.haltCaused → st'.haltCaused ∧ (st'.mayHalt = true → st.mayHalt = true)) : st.Keeps st' := by
  simp only [Prod.mk.injEq] at same lists
  obtain ⟨buffers, queue, dir, cls, maxLen, perCycle⟩ := same
  refine ⟨.of_plain (by rw [buffers]) (by rw [queue, dir, cls, maxLen, perCycle]) fun h => ?_, life⟩
  simpa only [Stream.oneWay, dir, lists] using h.oneWay

theorem Stream.haltCaused.of_ne (halting : st.state ≠ .halting) (halted : st.state ≠ .halted) : st.haltCaused :=
  fun h => absurd h (not_or.mpr ⟨halting, halted⟩)

/-- A stream that has halted keeps its cause, and with it takes up no reservation (R7, R9). -/
theorem Stream.life_of_cause (cause : st'.cause = st.cause) (halting : st'.state ≠ .halting) (halted : st'.state ≠ .halted)
    (state : st.state ≠ .aborting) (caused : st.haltCaused) :
    st'.haltCaused ∧ (st'.mayHalt = true → st.mayHalt = true) := by
  refine ⟨.of_ne halting halted, fun may => ?_⟩
  have uncaused : st.cause = none := by simpa [cause] using (Bool.and_eq_true_iff.mp may).2
  cases e : st.state <;> simp_all [Stream.mayHalt, Stream.haltCaused]

/-! ### Discards, halts and aborts -/

theorem Buffer.not_receiving_of_isOutbound {b : Buffer} (h : b.isOutbound = true) : b.isReceiving = false :=
  Bool.eq_false_iff.mpr fun receives => by simp [(Buffer.unqueued_of_isReceiving receives).2.2.2] at h

theorem Buffer.not_receiving_of_isKept {b : Buffer} (h : b.isKept = true) : b.isReceiving = false :=
  Bool.eq_false_iff.mpr fun receives => by simp [(Buffer.unqueued_of_isReceiving receives).2.2.1] at h

theorem Buffer.not_receiving_of_isQueuedOut {b : Buffer} (h : b.isQueuedOut = true) : b.isReceiving = false :=
  Bool.eq_false_iff.mpr fun receives => by simp [(Buffer.unqueued_of_isReceiving receives).2.1] at h

theorem Stream.keeps_discard_outbound (st : Stream) : st.Keeps (st.discard Buffer.isOutbound) :=
  .discard (fun _ => Buffer.not_receiving_of_isOutbound) st

theorem Stream.keeps_discard_kept (st : Stream) : st.Keeps (st.discard Buffer.isKept) :=
  .discard (fun _ => Buffer.not_receiving_of_isKept) st

theorem Stream.keeps_abandon (st : Stream) : st.Keeps st.abandon := by
  rcases st.abandon_cases with ⟨-, h⟩ | ⟨-, h⟩ <;> rw [h]
  · exact .refl st
  · have sent : ∀ b : Buffer, b.isSent = true → b.isReceiving = false := fun b hb =>
      Buffer.not_receiving_of_isOutbound (by simp [Buffer.isOutbound, hb])
    exact (Stream.Keeps.discard sent st).then (.aside rfl rfl) rfl

theorem Stream.keeps_setGap (st : Stream) : st.Keeps st.setGap := by
  unfold Stream.setGap
  split
  · exact .aside rfl rfl
  · exact .refl st

theorem Stream.setGap_buffers (st : Stream) : st.setGap.buffers = st.buffers := by
  unfold Stream.setGap
  split <;> rfl

theorem Stream.keeps_flushDiscard {p : Buffer → Bool} (settled : ∀ b, p b = true → b.isReceiving = false)
    (st : Stream) : st.Keeps (st.flushDiscard p) := by
  unfold Stream.flushDiscard
  split
  · exact (Stream.Keeps.discard settled st).then (keeps_setGap _) (setGap_buffers _)
  · exact .refl st

theorem Stream.keeps_resetSeq (st : Stream) : st.Keeps st.resetSeq := .aside rfl rfl

theorem Stream.keeps_bringBack (st : Stream) : st.Keeps st.bringBack := by
  refine Stream.KeepsStore.keeps (.of_plain ?_ rfl fun h => h.oneWay.mono rfl id id (by simp [Stream.bringBack]) id) rfl
  simp only [Stream.bringBack, List.map_map]
  exact List.map_congr_left fun b _ => by cases b <;> rfl

theorem Stream.bringBack_free {k : Nat} (h : st.buffer k = .free) : st.bringBack.buffer k = .free := by
  simp only [Stream.buffer, List.getD_eq_getElem?_getD, Stream.bringBack, List.getElem?_map] at h ⊢
  cases e : st.buffers[k]? with
  | none => rfl
  | some b =>
    rw [e] at h
    cases h
    rfl

/-- A halt ends the reservation and records its cause (R7, R9). -/
theorem Stream.keeps_beginHalt (cause : HaltCause) (st : Stream) : st.Keeps (st.beginHalt cause) := by
  have kept : st.Keeps (if cause.abandons then st.abandon else st) := by
    split
    · exact st.keeps_abandon
    · exact .refl st
  exact kept.then (.turn rfl rfl fun _ => ⟨fun _ => rfl, fun may => by cases may⟩) rfl

theorem Stream.keeps_beginAbort (st : Stream) : st.Keeps st.beginAbort :=
  st.keeps_abandon.then (.turn rfl rfl fun _ => ⟨.of_ne nofun nofun, nofun⟩) rfl

/-- A graceful close takes up no reservation: a HALTED stream closes with its halt cause (R7, R21). -/
theorem Stream.keeps_beginClose (state : st.state ≠ .aborting) : st.Keeps st.beginClose :=
  .turn rfl rfl (life_of_cause rfl nofun nofun state)

/-- A flush takes up no reservation: a HALTED stream flushes with its halt cause (R7, R18). -/
theorem Stream.keeps_beginFlush (state : st.state ≠ .aborting) : st.Keeps st.beginFlush := by
  have flushing : st.Keeps { st with state := .flushing, stage := .waiting, request := some .flush, discarded := 0 } :=
    .turn rfl rfl (life_of_cause rfl nofun nofun state)
  have held : ∀ b : Buffer, b.isHeld = true → b.isReceiving = false := fun b hb =>
    Buffer.not_receiving_of_isKept (by simp [Buffer.isKept, hb])
  unfold Stream.beginFlush
  dsimp only
  split
  · exact flushing
  · exact flushing.before rfl (keeps_flushDiscard held _)

/-! ### The records of a stream -/

theorem Stream.keeps_leaveOne {i : StreamId} (h : st.leaveOne i = some st') : st.Keeps st' := by
  unfold Stream.leaveOne at h
  split at h
  · split at h
    · split at h
      · next e es sends =>
        have left : st.Keeps { st with sends := es } :=
          .of_eq rfl fun l => l.oneWay.mono rfl (by simp [sends]) id id id
        split at h <;> cases h
        split
        · exact left
        · exact left.then (.aside rfl rfl) rfl
      · cases h
    · split at h
      · next e es receives =>
        have left : st.Keeps { st with receives := es } :=
          .of_eq rfl fun l => l.oneWay.mono rfl id id (by simp [receives]) id
        split at h <;> cases h
        split
        · exact left
        · exact left.then (.aside rfl rfl) rfl
      · cases h
  · cases h

theorem Stream.keeps_completeNext (i : StreamId) (status : Status) (st : Stream) :
    st.Keeps (st.completeNext i status) := by
  unfold Stream.completeNext
  split
  · next sends => exact .of_eq rfl fun l => l.oneWay.mono rfl (by simp [sends]) id id id
  · next receives => exact .of_eq rfl fun l => l.oneWay.mono rfl id id (by simp [receives]) id
  · repeat' split
    all_goals exact .aside rfl rfl

theorem Stream.keeps_completeHeadOnly (i : StreamId) (status : Status) (st : Stream) :
    st.Keeps (st.completeHeadOnly i status) := by
  unfold Stream.completeHeadOnly
  split
  · next receives => exact .of_eq rfl fun l => l.oneWay.mono rfl id id (by simp [receives]) id
  · exact .aside rfl rfl

theorem Stream.keeps_windCompletions {i : StreamId} (h : st.windCompletions i = some st') : st.Keeps st' := by
  unfold Stream.windCompletions at h
  repeat' split at h
  all_goals cases h
  · exact keeps_completeHeadOnly ..
  · exact keeps_completeNext ..
  · exact .aside rfl rfl

theorem Stream.keeps_windCompletions_map {i : StreamId} {x : Stream × Effect}
    (h : (st.windCompletions i).map (fun x => (x, Effect.none)) = some x) : st.Keeps x.1 := by
  obtain ⟨y, hy, rfl⟩ := Option.map_eq_some_iff.mp h
  exact keeps_windCompletions hy

/-! ### The work of a halt, a flush, a close and an abort -/

/-- The discard of an OUT stream's packets, with the reads that waited to be placed. -/
theorem Stream.keeps_discard_reads (st : Stream) (stage : Stage) :
    st.Keeps { st.discard Buffer.isOutbound with reads := [], stage := stage } :=
  st.keeps_discard_outbound.then (.of_eq rfl fun l => l.oneWay.mono rfl id (fun _ => rfl) id id) rfl

theorem Stream.keeps_windHalting {i : StreamId} {x : Stream × Effect} (state : st.state = .halting)
    (h : st.windHalting i = some x) : st.Keeps x.1 := by
  have ends : ∀ request, st.Keeps { st with failed := none, state := .halted, stage := .idle, request := request } :=
    fun _ => .turn rfl rfl fun caused => ⟨fun _ => caused (.inl state), fun may => by cases may⟩
  unfold Stream.windHalting at h
  split at h
  · split at h
    · cases dir : st.dir <;> rw [dir] at h <;> cases h
      · exact st.keeps_discard_reads .leaving
      · exact st.keeps_bringBack.then (.aside rfl rfl) rfl
    · cases h
  · split at h <;> cases h
    exact .aside rfl rfl
  · dsimp only at h
    split at h
    · cases h
      exact ends _
    · split at h <;> cases h
      · exact .aside rfl rfl
      · have ended : st.Keeps { st with failed := none } := .aside rfl rfl
        exact (ended.before rfl (keeps_flushDiscard (fun _ => Buffer.not_receiving_of_isKept) _)).then
          (.aside rfl rfl) rfl
    · split at h <;> cases h
      exact ends none
    · cases h
      exact .turn rfl rfl (life_of_cause rfl nofun nofun (by rw [state]; nofun))
  · exact keeps_windCompletions_map h

theorem Stream.keeps_windFlushing {i : StreamId} {x : Stream × Effect} (state : st.state = .flushing)
    (h : st.windFlushing i = some x) : st.Keeps x.1 := by
  unfold Stream.windFlushing at h
  split at h
  · cases dir : st.dir <;> rw [dir] at h <;> dsimp only at h <;> split at h <;> cases h
    · exact st.keeps_discard_reads .leaving
    · have drained : st.Keeps (st.flushDiscard Buffer.isDraining) :=
        keeps_flushDiscard (fun b hb => Buffer.not_receiving_of_isKept (by simp [Buffer.isKept, hb])) st
      exact (drained.trans (keeps_bringBack _) fun _ k _ gone => bringBack_free gone).then (.aside rfl rfl) rfl
  · split at h
    · cases h
    · cases dir : st.dir <;> rw [dir] at h <;> cases h
      · exact .aside (by simp [dir]) rfl
      · exact .aside (by simp [dir]) rfl
  · cases h
    refine .turn rfl rfl fun caused => ?_
    by_cases uncaused : st.cause = none
    · simp [Stream.haltCaused, Stream.mayHalt, uncaused, state]
    · simpa [Stream.haltCaused, Stream.mayHalt, uncaused] using Option.isSome_iff_ne_none.mpr uncaused
  · exact keeps_windCompletions_map h

theorem Stream.keeps_windClosing {i : StreamId} {x : Stream × Effect} (h : st.windClosing i = some x) :
    st.Keeps x.1 := by
  unfold Stream.windClosing at h
  split at h
  · split at h <;> cases h
    exact .refl st
  · split at h
    · split at h <;> cases h
      exact st.keeps_discard_kept.then (.aside rfl rfl) rfl
    · split at h <;> cases h
      exact .aside rfl rfl
    · repeat' split at h
      all_goals cases h
      · exact .aside rfl rfl
      · exact .refl st
    · exact keeps_windCompletions_map h

theorem Stream.keeps_windAborting {i : StreamId} {x : Stream × Effect} (h : st.windAborting i = some x) :
    st.Keeps x.1 := by
  unfold Stream.windAborting at h
  split at h
  · split at h
    · cases dir : st.dir <;> rw [dir] at h <;> cases h
      · exact st.keeps_discard_reads (.completeAll .aborted)
      · exact .aside rfl rfl
    · cases h
  · split at h <;> cases h
    exact .refl st
  · exact keeps_windCompletions_map h

theorem Stream.keeps_wind {i : StreamId} {x : Stream × Effect} (h : st.wind i = some x) : st.Keeps x.1 := by
  unfold Stream.wind at h
  split at h
  · cases h
  · cases h
  · next state => exact keeps_windHalting state h
  · next state => exact keeps_windFlushing state h
  · exact keeps_windClosing h
  · exact keeps_windAborting h

/-! ### The work ring -/

theorem Stream.keeps_dropReturned (h : st.dropReturned = some st') : st.Keeps st' := by
  unfold Stream.dropReturned at h
  split at h <;> cases h
  exact .aside rfl rfl

theorem Stream.keeps_fetchOne {env : Env} (h : st.fetchOne env = some st') : st.Keeps st' := by
  unfold Stream.fetchOne at h
  split at h <;> cases h
  exact .aside rfl rfl

theorem Stream.keeps_joinSend (env : Env) (position : Nat) (r : WorkRecord) (dir : st.dir = .outbound) :
    st.Keeps (st.joinSend env position r) :=
  .of_eq rfl fun l => .of_outbound dir (l.oneWay.1 dir).1 (l.oneWay.1 dir).2

theorem Stream.keeps_joinReceive (position : Nat) (r : WorkRecord) (dir : st.dir = .inbound) :
    st.Keeps (st.joinReceive position r) :=
  .of_eq rfl fun l => .of_inbound dir (l.oneWay.2 dir).1 (l.oneWay.2 dir).2

theorem Stream.keeps_handOn {env : Env} {x : Stream × Effect} (h : st.handOn env = some x) : st.Keeps x.1 := by
  unfold Stream.handOn at h
  split at h
  · split at h
    · next bits ring next =>
      dsimp only at h
      have taken : st.Keeps { st with ring := ring } := .aside rfl rfl
      have marked : st.Keeps { st with
          ring := ring
          bad := some { position := st.ring.taken, tag := (WorkRecord.read bits).tag, formed := false } } :=
        .aside rfl rfl
      have halts := marked.before rfl (keeps_beginHalt .badRecord _)
      split at h
      · next dir =>
        split at h
        · cases h
          exact taken.before rfl (keeps_joinSend _ _ _ dir)
        · split at h <;> cases h
          · exact halts
          · exact taken
      · next dir =>
        split at h
        · cases h
          exact taken.before rfl (keeps_joinReceive _ _ dir)
        · split at h <;> cases h
          · exact halts
          · exact taken
    · cases h
  · cases h

/-! ### The assembler -/

theorem Stream.of_filling? {k : Nat} {cur : List Byte} (h : st.filling? = some (k, cur)) :
    k < st.buffers.length ∧ st.buffer k = .filling cur := by
  unfold Stream.filling? at h
  split at h
  · next found =>
    cases h
    obtain ⟨hk, fills⟩ := Stream.buffer_of_findIdx? found
    refine ⟨hk, ?_⟩
    show st.buffer k = .filling (st.buffer k).data
    cases e : st.buffer k <;> simp_all [Buffer.isFilling, Buffer.data]
  · cases h

theorem Stream.of_filling?_none (h : st.filling? = none) (k : Nat) : (st.buffer k).isFilling = false := by
  unfold Stream.filling? at h
  split at h
  · cases h
  · next none_found => exact Stream.of_findIdx?_none rfl none_found k

theorem Stream.of_freeIndex {k : Nat} (h : st.freeIndex = some k) : k < st.buffers.length ∧ st.buffer k = .free :=
  (Stream.buffer_of_findIdx? h).imp id (Buffer.isFree_iff _).mp

/-- The buffer that is filled next is FILLING, or FREE with no buffer FILLING (R33). -/
theorem Stream.of_fillTarget {k : Nat} {cur : List Byte} (h : st.fillTarget = some (k, cur)) :
    k < st.buffers.length ∧ (st.buffer k = .filling cur ∨
      st.buffer k = .free ∧ cur = [] ∧ ∀ j, (st.buffer j).isFilling = false) := by
  unfold Stream.fillTarget at h
  split at h
  · next found =>
    cases h
    exact (Stream.of_filling? found).imp id .inl
  · next none_fills =>
    split at h <;> cases h
    next found =>
    exact (Stream.of_freeIndex found).imp id fun free => .inr ⟨free, rfl, Stream.of_filling?_none none_fills⟩

/-- The buffer that is filled next takes bytes (R33). -/
theorem Stream.Keeps.fill {k : Nat} {cur data : List Byte} (target : st.fillTarget = some (k, cur))
    (move : BufferLaw st → st.dir = .outbound ∧ data.length ≤ st.maxLen) : st.Keeps (st.setBuffer k (.filling data)) := by
  obtain ⟨hk, before⟩ := Stream.of_fillTarget target
  refine .replace hk fun l => ?_
  obtain ⟨dir, fits⟩ := move l
  have growing : (st.buffer k).isQueued = false ∧ (st.buffer k).Follows (.filling data) ∧
      ∀ j, j ≠ k → (st.buffer j).isGrowing = false := by
    have no_receiving : ∀ j, (st.buffer j).isReceiving = false := by
      intro j
      by_contra receives
      have into := Buffer.inbound_of_suits (l.packets.suits j) (.inl (by simpa using receives))
      simp [dir] at into
    rcases before with fills | ⟨free, -, none_fills⟩
    · rw [fills]
      refine ⟨rfl, ⟨rfl, nofun⟩, fun j other => ?_⟩
      by_contra grows
      exact other (l.packets.oneGrowing j k (by simpa using grows) (by rw [fills]; rfl))
    · rw [free]
      exact ⟨rfl, ⟨rfl, nofun⟩, fun j _ => by simp [Buffer.isGrowing, none_fills j, no_receiving j]⟩
  exact ⟨by rw [dir]; rfl, fits, growing.1.symm, fun _ => growing.2.2, nofun, growing.2.1⟩

/-- The send records and reads of an OUT stream change. -/
theorem Stream.Keeps.outLists (same : (st'.buffers, st'.queue, st'.dir, st'.cls, st'.maxLen, st'.perCycle, st'.state,
      st'.cause) = (st.buffers, st.queue, st.dir, st.cls, st.maxLen, st.perCycle, st.state, st.cause))
    (others : (st'.receives, st'.writes) = (st.receives, st.writes)) (out : st.sends ≠ [] ∨ st.reads ≠ []) :
    st.Keeps st' := by
  refine .of_eq same fun l => ?_
  simp only [Prod.mk.injEq] at same others
  have dir : st.dir = .outbound := out.elim l.oneWay.outbound_of_sends l.oneWay.outbound_of_reads
  exact .of_outbound (same.2.2.1.trans dir) (others.1.trans (l.oneWay.1 dir).1) (others.2.trans (l.oneWay.1 dir).2)

theorem Stream.keeps_placeBytes {r : SendRead} {rest : List SendRead} {data : List Byte} {k : Nat} {cur : List Byte}
    (reads : st.reads = r :: rest) (target : st.fillTarget = some (k, cur)) :
    st.Keeps (st.placeBytes r rest data k cur) := by
  have out : st.reads ≠ [] := by simp [reads]
  have fits : BufferLaw st → st.dir = .outbound ∧ (cur ++ data.take (st.maxLen - cur.length)).length ≤ st.maxLen := by
    intro l
    have cur_fits : cur.length ≤ st.maxLen := by
      rcases (Stream.of_fillTarget target).2 with fills | ⟨-, rfl, -⟩
      · simpa only [fills, Buffer.count, Buffer.data] using l.packets.fits k
      · exact Nat.zero_le _
    refine ⟨l.oneWay.outbound_of_reads out, ?_⟩
    rw [List.length_append, List.length_take]
    omega
  have before : (st.buffer k).isFilling = true ∨ st.buffer k = .free := by
    rcases (Stream.of_fillTarget target).2 with fills | ⟨free, -⟩
    · exact .inl (by rw [fills]; rfl)
    · exact .inr free
  have committed : ∀ mark, st.Keeps (st.commitBuffer k (cur ++ data.take (st.maxLen - cur.length)) mark) := fun _ =>
    .commit (Stream.of_fillTarget target).1 fun l => ⟨(fits l).1, (fits l).2, before⟩
  unfold Stream.placeBytes
  dsimp only
  split
  · exact (committed true).then (.outLists rfl rfl (.inr out)) rfl
  · split
    · exact (committed false).then (.outLists rfl rfl (.inr out)) rfl
    · exact (Stream.Keeps.fill target fits).then (.outLists rfl rfl (.inr out)) rfl

theorem Stream.keeps_placeOne (h : st.placeOne = some st') : st.Keeps st' := by
  unfold Stream.placeOne at h
  split at h
  · next reads =>
    split at h
    · split at h <;> cases h
      next target => exact keeps_placeBytes reads target
    · cases h
  · cases h

theorem Stream.keeps_issueRead {e : SendEntry} (n : Nat) (sends : st.sends ≠ []) : st.Keeps (st.issueRead e n) := by
  unfold Stream.issueRead
  dsimp only
  split
  · next k none_fills free =>
    have target : st.fillTarget = some (k, []) := by simp [Stream.fillTarget, none_fills, free]
    exact (Stream.Keeps.fill target fun l => ⟨l.oneWay.outbound_of_sends sends, Nat.zero_le _⟩).then
      (.outLists rfl rfl (.inl sends)) rfl
  · exact .outLists rfl rfl (.inl sends)

theorem Stream.keeps_commitEmptyMark {e : SendEntry} (sends : st.sends ≠ []) (h : st.commitEmptyMark e = some st') :
    st.Keeps st' := by
  unfold Stream.commitEmptyMark at h
  dsimp only at h
  split at h
  · next k b d fills =>
    cases h
    obtain ⟨hk, filling⟩ := Stream.of_filling? fills
    refine Stream.Keeps.then (.commit hk fun l => ⟨l.oneWay.outbound_of_sends sends, ?_, .inl (by rw [filling]; rfl)⟩)
      (.outLists rfl rfl (.inl sends)) rfl
    simpa only [filling, Buffer.count, Buffer.data] using l.packets.fits k
  · split at h <;> cases h
    next k free =>
    obtain ⟨hk, free⟩ := Stream.of_freeIndex free
    exact Stream.Keeps.then (.commit hk fun l => ⟨l.oneWay.outbound_of_sends sends, Nat.zero_le _, .inr free⟩)
      (.outLists rfl rfl (.inl sends)) rfl

theorem Stream.keeps_assembleOne (h : st.assembleOne = some st') : st.Keeps st' := by
  unfold Stream.assembleOne at h
  split at h
  · split at h
    · cases h
    · next e found =>
      have sends : st.sends ≠ [] := List.ne_nil_of_mem (List.mem_of_find?_eq_some found)
      split at h
      · split at h
        · exact keeps_commitEmptyMark sends h
        · cases h
      · split at h <;> cases h
        exact keeps_issueRead _ sends
  · cases h

theorem Stream.keeps_closeCommit (h : st.closeCommit = some st') : st.Keeps st' := by
  unfold Stream.closeCommit at h
  split at h
  · split at h <;> cases h
    next k b d fills =>
    obtain ⟨hk, filling⟩ := Stream.of_filling? fills
    refine .commit hk fun l => ⟨?_, ?_, .inl (by rw [filling]; rfl)⟩
    · exact Buffer.outbound_of_suits (l.packets.suits k) (by rw [filling]; rfl)
    · simpa only [filling, Buffer.count, Buffer.data] using l.packets.fits k
  · cases h

/-! ### The distributor -/

theorem Stream.keeps_modHead (f : ReceiveEntry → ReceiveEntry) (st : Stream) : st.Keeps (st.modHead f) :=
  .of_eq rfl fun l => l.oneWay.mono rfl id id (by simp +contextual [Stream.modHead]) id

theorem Stream.keeps_takeHeld (h : st.takeHeld = some st') : st.Keeps st' := by
  unfold Stream.takeHeld at h
  split at h
  · split at h
    · next e es k queue receives waiting none_drains =>
      split at h
      · split at h
        · next held =>
          cases h
          exact (Stream.Keeps.free fun _ => by rw [held]; rfl).then (keeps_modHead _ _) rfl
        · next data mark arrival cycle gap _ held =>
          cases h
          have hk := Stream.lt_of_buffer_ne_free (st := st) (k := k) (by rw [held]; nofun)
          refine .replace hk fun l => ?_
          have suits := l.packets.suits k
          have fits := l.packets.fits k
          rw [held] at suits fits ⊢
          refine ⟨?_, fits, rfl, nofun, fun _ => by rw [waiting]; rfl, rfl, nofun⟩
          cases dir : st.dir <;> simp_all [Buffer.suits, Buffer.isFree, Buffer.isFilling, Buffer.isQueuedOut,
            Buffer.isCommitted, Buffer.isSent, Buffer.isKept, Buffer.isDraining]
        · cases h
      · cases h
    · cases h
  · cases h

theorem Stream.keeps_issueWrite (h : st.issueWrite = some st') : st.Keeps st' := by
  unfold Stream.issueWrite at h
  split at h
  · split at h
    · next e es k receives drains =>
      split at h
      · next draining =>
        split at h <;> cases h
        refine Stream.Keeps.then (.same_packet (by rw [draining]; rfl)) (.of_eq rfl fun l => ?_) rfl
        have dir := l.oneWay.inbound_of_receives (by simp [Stream.setBuffer, receives])
        exact .of_inbound dir (l.oneWay.2 dir).1 (l.oneWay.2 dir).2
      · cases h
    · cases h
  · cases h

/-! ### Every internal action -/

/-- Every internal action of a stream keeps the law of its buffers and takes up no reservation. -/
theorem Stream.keeps_internal {env : Env} {i : StreamId} {x : Stream × Effect} (h : st.internal env i = some x) :
    st.Keeps x.1 := by
  have of_plain : ∀ (o : Option Stream) (x : Stream × Effect), (∀ s, o = some s → st.Keeps s) →
      plain o = some x → st.Keeps x.1 := by
    intro o x all hx
    obtain ⟨s, hs, rfl⟩ := Option.map_eq_some_iff.mp hx
    exact all s hs
  refine Stream.fixed_firstSome (P := fun x : Stream × Effect => st.Keeps x.1) _ ?_ h
  intro o ho x hx
  simp only [List.mem_cons, List.not_mem_nil, or_false] at ho
  rcases ho with rfl | rfl | rfl | rfl | rfl | rfl | rfl | rfl | rfl | rfl
  · exact of_plain _ x (fun _ => keeps_leaveOne) hx
  · exact of_plain _ x (fun _ => keeps_placeOne) hx
  · exact of_plain _ x (fun _ => keeps_dropReturned) hx
  · exact keeps_wind hx
  · exact keeps_handOn hx
  · exact of_plain _ x (fun _ => keeps_assembleOne) hx
  · exact of_plain _ x (fun _ => keeps_closeCommit) hx
  · exact of_plain _ x (fun _ => keeps_takeHeld) hx
  · exact of_plain _ x (fun _ => keeps_issueWrite) hx
  · exact of_plain _ x (fun _ => keeps_fetchOne) hx

/-! ### Answers, the lane and the ends of transfers -/

theorem Stream.keeps_credit (n : Nat) (mark : Bool) (cycle : CycleNum) (st : Stream) : st.Keeps (st.credit n mark cycle) :=
  .of_eq rfl fun l => l.oneWay.mono rfl (by simp +contextual [Stream.credit]) id id id

/-- A confirmed packet's buffer becomes FREE (R35, R36). -/
theorem Stream.keeps_confirm {k : Nat} (cycle : CycleNum) (settled : BufferLaw st → (st.buffer k).isReceiving = false) :
    st.Keeps (st.confirm k cycle) :=
  (Stream.Keeps.free settled).then (keeps_credit _ _ _ _) rfl

theorem Stream.of_sent? {k : Nat} {bit : Bool} (h : st.sent? = some (k, bit)) : (st.buffer k).isSent = true := by
  unfold Stream.sent? at h
  repeat' split at h
  all_goals cases h
  next sent => rw [sent]; rfl

theorem Stream.keeps_accepted (bit : Bool) (cycle : CycleNum) (st : Stream) : st.Keeps (st.accepted bit cycle) := by
  unfold Stream.accepted
  split
  · next k b next flight n sent seq =>
    split
    · refine (keeps_confirm cycle fun _ => ?_).then (.aside rfl rfl) rfl
      exact Buffer.not_receiving_of_isOutbound (by simp [Buffer.isOutbound, Stream.of_sent? sent])
    · exact .refl st
  · exact .refl st

theorem Stream.keeps_deferred (bit : Bool) (st : Stream) : st.Keeps (st.deferred bit) := by
  unfold Stream.deferred
  split
  · next k b next flight n sent seq =>
    split
    · refine Stream.Keeps.then (.same_packet ?_) (.aside rfl rfl) rfl
      cases st.buffer k <;> rfl
    · exact .refl st
  · exact .refl st

theorem Stream.keeps_advanceAnswer (st : Stream) : st.Keeps st.advanceAnswer := by
  unfold Stream.advanceAnswer
  split
  · split
    · next sent => exact .same_packet (by rw [sent]; rfl)
    · next sent => exact Stream.Keeps.then (.same_packet (by rw [sent]; rfl)) (.aside rfl rfl) rfl
    · next sent => exact .same_packet (by rw [sent]; rfl)
    · exact .refl st
  · exact .refl st

/-- The head of the committed queue is sent: a COMMITTED head becomes SENT, with no other SENT (R36, R119). -/
theorem Stream.keeps_sendHead {k : Nat} {mark bit : Bool} {data : List Byte}
    (h : st.sendHead = some (st', k, mark, bit, data)) : st.Keeps st' ∧ (st'.buffer k).isQueuedOut = true := by
  have of_head : ∀ {k b}, st.headBuffer = some (k, b) → st.queue.head? = some k ∧ st.buffer k = b := by
    intro k b head
    unfold Stream.headBuffer at head
    split at head <;> cases head
    next queue => exact ⟨by rw [queue]; rfl, rfl⟩
  have set_buffer : ∀ {k b}, k < st.buffers.length → (st.setBuffer k b).buffer k = b := fun hk => by
    rw [Stream.buffer_of_set rfl hk, Function.update_self]
  unfold Stream.sendHead at h
  split at h
  · next head seq =>
    cases h
    obtain ⟨first, committed⟩ := of_head head
    have hk : k < st.buffers.length := Stream.lt_of_buffer_ne_free (by rw [committed]; nofun)
    refine ⟨Stream.Keeps.then (.replace hk fun l => ?_) (.aside rfl rfl) rfl, ?_⟩
    · have dir := Buffer.outbound_of_suits (l.packets.suits k) (by rw [committed]; rfl)
      have fits := l.packets.fits k
      rw [committed] at fits ⊢
      exact ⟨by rw [dir]; rfl, fits, rfl, nofun, fun _ => first, rfl, fun _ => .inl rfl⟩
    · exact congrArg Buffer.isQueuedOut (set_buffer hk)
  · next head =>
    cases h
    obtain ⟨-, sent⟩ := of_head head
    have hk : k < st.buffers.length := Stream.lt_of_buffer_ne_free (by rw [sent]; nofun)
    exact ⟨.same_packet (by rw [sent]; rfl), congrArg Buffer.isQueuedOut (set_buffer hk)⟩
  · cases h

/-- A scheduled frame's last byte has been sent: the counter rises, and the packet is confirmed (R35, R115). -/
theorem Stream.keeps_scheduledSent {k : Nat} (cycle : CycleNum) (queued : (st.buffer k).isQueuedOut = true) :
    st.Keeps (st.scheduledSent k cycle) := by
  have counted : st.Keeps { st with seq := st.seq.countUp } := .aside rfl rfl
  unfold Stream.scheduledSent
  dsimp only
  split
  · exact counted.before rfl (keeps_confirm cycle fun _ => Buffer.not_receiving_of_isQueuedOut queued)
  · exact counted

theorem Stream.keeps_countWrite (w : ReceiveWrite) (st : Stream) : st.Keeps (st.countWrite w) := by
  unfold Stream.countWrite
  split
  · next k drains =>
    split
    · next draining =>
      dsimp only
      split
      · refine (keeps_modHead _ st).before rfl (.free fun _ => ?_)
        exact (congrArg Buffer.isReceiving draining : (st.buffer k).isReceiving = _)
      · exact (keeps_modHead _ st).before rfl (.same_packet (congrArg Buffer.plain draining).symm)
    · exact .refl st
  · exact .refl st

theorem Stream.keeps_readFailed (place : Nat) (r : SendRead) (st : Stream) : st.Keeps (st.readFailed place r) :=
  .of_eq rfl fun l => l.oneWay.mono rfl id (by simp +contextual [Stream.readFailed]) id id

theorem Stream.keeps_completionWritten (st : Stream) : st.Keeps st.completionWritten := .aside rfl rfl

end Sys2Proof.Machine
end

section
/-! SUPPORT. What every operation on the body keeps: the law of the packet store, the law of the block map, and the
reserved sum within the reservable amount (R7, R27, R30, R32, R38, R108, R112). -/

namespace Sys2Proof.Machine

open Sys2Proof

/-! ### The laws of a body -/

/-- The part after reset with this body: the state in which a law of the body alone is read. -/
def Body.alone (b : Body) : State := { State.reset with body := b }

/-- Every stream HALTING or HALTED has a halt cause (1.1). -/
def Body.haltsCaused (b : Body) : Prop := ∀ i, ∀ st ∈ b.stream i, st.haltCaused

/-- The law of the store speaks of the body alone. -/
theorem StoreLaw.of_body {s t : State} (l : StoreLaw s) (h : t.body = s.body) : StoreLaw t :=
  ⟨h ▸ l.buffers, h ▸ l.receiving, h ▸ l.claimed, h ▸ l.lane⟩

/-- The law of the block map speaks of the streams and the blocks alone. -/
theorem BlockLaw.of_streams {s t : State} (l : BlockLaw s) (streams : t.body.streams = s.body.streams)
    (blocks : t.body.blocks = s.body.blocks) : BlockLaw t := by
  have stream : t.body.stream = s.body.stream := funext fun i => by rw [Body.stream, streams, Body.stream]
  exact ⟨by simpa only [blocks, stream] using l.owned, by simpa only [blocks] using l.owners⟩

/-- The change of the body keeps the law of the store and that of the block map, and keeps the reserved sum within this
reservable amount. -/
structure Body.Keeps (reservable : Nat) (b b' : Body) : Prop where
  store : StoreLaw b.alone → StoreLaw b'.alone
  block : BlockLaw b.alone → BlockLaw b'.alone
  caused : b.haltsCaused → b'.haltsCaused
  reserved : b.haltsCaused → b.reservedSum ≤ reservable → b'.reservedSum ≤ reservable

theorem Body.Keeps.refl (reservable : Nat) (b : Body) : b.Keeps reservable b := ⟨id, id, id, fun _ => id⟩

theorem Body.Keeps.trans {reservable : Nat} {b b' b'' : Body} (h : Body.Keeps reservable b b')
    (h' : Body.Keeps reservable b' b'') : Body.Keeps reservable b b'' :=
  ⟨h'.store ∘ h.store, h'.block ∘ h.block, h'.caused ∘ h.caused,
    fun caused fits => h'.reserved (h.caused caused) (h.reserved caused fits)⟩

/-- A change before another: the second is named first. -/
theorem Body.Keeps.after {reservable : Nat} {b b' b'' : Body} (h' : Body.Keeps reservable b' b'')
    (h : Body.Keeps reservable b b') : Body.Keeps reservable b b'' := h.trans h'

section

variable {reservable : Nat} {b b' : Body} {i : StreamId} {st st' : Stream}

/-! ### Changes beside the streams -/

/-- Whom the arriving frame's claim is for: the stream and the buffer (R38). -/
def Reception.claims (r : Reception) : StreamId × Option Nat := (r.header.stream, r.claim)

theorem Body.reservedSum_le (le : ∀ i, b'.reservedBy i ≤ b.reservedBy i) : b'.reservedSum ≤ b.reservedSum := by
  rw [Body.reservedSum_eq, Body.reservedSum_eq]
  exact List.sum_le_sum fun i _ => le i

/-- The block map and the reservations stay with the streams' contexts and the blocks. -/
theorem Body.Keeps.of_streams (streams : b'.streams = b.streams) (blocks : b'.blocks = b.blocks)
    (store : StoreLaw b.alone → StoreLaw b'.alone) : b.Keeps reservable b' := by
  have stream : b'.stream = b.stream := funext fun i => by rw [Body.stream, streams, Body.stream]
  refine ⟨store, fun l => l.of_streams streams blocks, fun caused i st h => ?_, fun _ fits => ?_⟩
  · exact caused i st (by rwa [stream] at h)
  · simpa only [Body.reservedSum, streams] using fits

/-- The lane takes a control frame, loses its frame, or takes a DATA frame from a queued buffer. -/
theorem Body.Keeps.of_lane (same : (b'.streams, b'.blocks, b'.rx) = (b.streams, b.blocks, b.rx))
    (lane : StoreLaw b.alone → ∀ h k p, b'.lt.lane = some (.data h k p) → b.lt.lane = some (.data h k p) ∨
      ∃ st, b.stream h.stream = some st ∧ (st.buffer k).isQueuedOut = true) : b.Keeps reservable b' := by
  simp only [Prod.mk.injEq] at same
  obtain ⟨streams, blocks, rx⟩ := same
  have stream : b'.stream = b.stream := funext fun i => by rw [Body.stream, streams, Body.stream]
  refine .of_streams streams blocks fun l => ⟨?_, ?_, ?_, fun h k p data => ?_⟩
  · simpa only [Body.alone, stream] using l.buffers
  · simpa only [Body.alone, stream, rx] using l.receiving
  · simpa only [Body.alone, stream, rx] using l.claimed
  · show ∃ st, b'.stream h.stream = some st ∧ _
    rw [stream]
    rcases lane l h k p data with before | queued
    · exact l.lane h k p before
    · exact queued

/-- A change of neither the streams, the blocks, the arriving frame nor the lane. -/
theorem Body.Keeps.aside (same : (b'.streams, b'.blocks, b'.rx, b'.lt.lane) = (b.streams, b.blocks, b.rx, b.lt.lane)) :
    b.Keeps reservable b' := by
  simp only [Prod.mk.injEq] at same
  obtain ⟨streams, blocks, rx, lane⟩ := same
  exact .of_lane (by rw [streams, blocks, rx]) fun _ h k p data => .inl (lane ▸ data)

/-- A change that leaves no DATA frame on the lane. -/
theorem Body.Keeps.offLane (same : (b'.streams, b'.blocks, b'.rx) = (b.streams, b.blocks, b.rx))
    (lane : ∀ h k p, b'.lt.lane ≠ some (.data h k p)) : b.Keeps reservable b' :=
  .of_lane same fun _ h k p data => absurd data (lane h k p)

/-! ### A store event of one stream -/

theorem Stream.keeps_stored (old new : Stream) : new.Keeps (old.stored new) := .aside rfl rfl

/-- A store event of stream `i`, with what becomes of the arriving frame, keeps the law of the store when the stream's own
law holds after it and the RECEIVING buffers are again those of the arriving frame's claim. -/
theorem StoreLaw.put (l : StoreLaw b.alone) (h : b.stream i = some st) (params : st'.params = st.params)
    (law : BufferLaw st')
    (queued : ∀ k, (st.buffer k).isQueuedOut = true → (st'.buffer k).isQueuedOut = true ∨ st'.buffer k = .free)
    {rx : Option Reception}
    (receiving : ∀ k, (st'.buffer k).isReceiving = true → rx.map Reception.claims = some (i, some k))
    (others : ∀ j k, j ≠ i → b.rx.map Reception.claims = some (j, some k) →
      rx.map Reception.claims = some (j, some k))
    (claimed : ∀ r ∈ rx, ∀ k ∈ r.claim, (r.header.stream = i ∧ (st'.buffer k).isReceiving = true ∧
        r.header.length ≤ st.maxLen ∧ r.header.cls = st.cls ∧ st.dir = .inbound) ∨
      (r.header.stream ≠ i ∧ ∃ r₀ ∈ b.rx, r₀.header = r.header ∧ r₀.claim = r.claim)) :
    StoreLaw { b.put i st st' with rx := rx }.alone := by
  obtain ⟨dir, cls, maxLen, -⟩ := by simpa only [Stream.params, Prod.mk.injEq] using params
  have self : (b.put i st st').stream i = some (st.stored st') := Body.put_stream_self ..
  have other : ∀ j, j ≠ i → (b.put i st st').stream j = b.stream j := fun j e => Body.put_stream_ne e ..
  refine ⟨fun j x hx => ?_, fun j x hx k hk => ?_, fun r hr k hk => ?_, fun d k p lane => ?_⟩
  · change x ∈ (b.put i st st').stream j at hx
    by_cases e : j = i
    · subst e
      obtain rfl : st.stored st' = x := Option.some.inj (self.symm.trans hx)
      exact (Stream.keeps_stored st st').law law
    · exact l.buffers j x ((other j e).symm.trans hx)
  · change x ∈ (b.put i st st').stream j at hx
    by_cases e : j = i
    · subst e
      obtain rfl : st.stored st' = x := Option.some.inj (self.symm.trans hx)
      exact receiving k hk
    · exact others j k e (l.receiving j x ((other j e).symm.trans hx) k hk)
  · change ∃ x, (b.put i st st').stream r.header.stream = some x ∧ _
    rcases claimed r hr k hk with ⟨e, receives, fits, sameCls, into⟩ | ⟨e, r₀, hr₀, header, claim⟩
    · rw [e]
      exact ⟨_, self, receives, fits.trans_eq maxLen.symm, sameCls.trans cls.symm, dir.trans into⟩
    · rw [other _ e, ← header]
      exact l.claimed r₀ hr₀ k (claim ▸ hk)
  · change (b.put i st st').lt.lane = _ at lane
    change ∃ x, (b.put i st st').stream d.stream = some x ∧ _
    rw [Body.put_lane] at lane
    obtain ⟨before, uncut⟩ : b.lt.lane = some (.data d k p) ∧ ¬(d.stream = i ∧ (st'.buffer k).isFree = true) := by
      unfold laneAfter at lane
      split at lane
      · next held =>
        split at lane <;> cases lane
        next uncut => exact ⟨held, uncut⟩
      · next no_data => exact absurd lane (no_data d k p)
    obtain ⟨x, hx, out⟩ := l.lane d k p before
    by_cases e : d.stream = i
    · rw [e] at hx ⊢
      obtain rfl : x = st := Option.some.inj (Eq.trans hx.symm h)
      refine ⟨_, self, (queued k out).resolve_right fun free => uncut ⟨e, ?_⟩⟩
      rw [free]
      rfl
    · rw [other _ e]
      exact ⟨x, hx, out⟩

/-- A store event of a stream leaves the law of the block map: the stream needs as many blocks as before. -/
theorem BlockLaw.put (l : BlockLaw b.alone) (h : b.stream i = some st) (params : st'.params = st.params) :
    BlockLaw (b.put i st st').alone := by
  obtain ⟨-, -, maxLen, -, length⟩ := by simpa only [Stream.params, Prod.mk.injEq] using params
  refine ⟨fun j => ?_, ?_⟩
  · have owned := l.owned j
    simp only [Body.alone, Body.put_blocks] at owned ⊢
    rw [owned]
    by_cases e : j = i
    · subst e
      simp [h, maxLen, length]
    · rw [Body.put_stream_ne e]
  · simpa only [Body.alone, Body.put_blocks] using l.owners

theorem Body.put_haltsCaused (caused : b.haltsCaused) (halts : st'.haltCaused) : (b.put i st st').haltsCaused := by
  intro j x hx
  by_cases e : j = i
  · subst e
    obtain rfl : st.stored st' = x := Option.some.inj ((Body.put_stream_self ..).symm.trans hx)
    exact halts
  · exact caused j x ((Body.put_stream_ne e ..).symm.trans hx)

theorem Body.put_reservedBy_self :
    (b.put i st st').reservedBy i = if st'.holdsReservation then st'.reservation else 0 := by
  rw [Body.reservedBy, Body.put_stream_self]
  rfl

theorem Body.put_reservedBy_ne {j : StreamId} (e : j ≠ i) : (b.put i st st').reservedBy j = b.reservedBy j := by
  rw [Body.reservedBy, Body.put_stream_ne e, Body.reservedBy]

theorem Body.reservedBy_some (h : b.stream i = some st) :
    b.reservedBy i = if st.holdsReservation then st.reservation else 0 := by
  rw [Body.reservedBy, h]

/-- A stream that can halt as before holds its reservation as before. -/
theorem Body.put_reservedSum_le (h : b.stream i = some st) (params : st'.params = st.params)
    (may : st'.mayHalt = true → st.mayHalt = true) : (b.put i st st').reservedSum ≤ b.reservedSum := by
  obtain ⟨dir, cls, maxLen, perCycle, -⟩ := by simpa only [Stream.params, Prod.mk.injEq] using params
  refine Body.reservedSum_le fun j => ?_
  by_cases e : j = i
  · subst e
    have held : st'.holdsReservation = true → st.holdsReservation = true := by
      simp only [Stream.holdsReservation, dir, cls, Bool.and_eq_true]
      exact And.imp_right may
    rw [Body.put_reservedBy_self, Body.reservedBy_some h, Stream.reservation, Stream.reservation, maxLen, perCycle]
    split
    · next holds => rw [if_pos (held holds)]
    · exact Nat.zero_le _
  · exact (Body.put_reservedBy_ne e).le

/-- A store event that keeps the law of the stream's buffers keeps the law of the store. -/
theorem Body.put_store (h : b.stream i = some st) (k : st.KeepsStore st') (l : StoreLaw b.alone) :
    StoreLaw (b.put i st st').alone := by
  have law := l.buffers i st h
  have follows := k.follows law
  refine StoreLaw.of_body (l.put h k.params (k.law law) (fun n => (follows n).queuedOut) (rx := b.rx)
    (fun n receives => ?_) (fun _ _ _ => id) fun r hr n hn => ?_) (by simp only [Body.alone, Body.put_eq])
  · rw [(follows n).receiving] at receives
    exact l.receiving i st h n receives
  · by_cases e : r.header.stream = i
    · obtain ⟨x, hx, receives, fits, cls, into⟩ := l.claimed r hr n hn
      rw [e] at hx
      obtain rfl : x = st := Option.some.inj (Eq.trans hx.symm h)
      exact .inl ⟨e, by rwa [(follows n).receiving], fits, cls, into⟩
    · exact .inr ⟨e, r, hr, rfl, rfl⟩

/-- A store event of an open stream. -/
theorem Body.Keeps.put (h : b.stream i = some st) (k : st.Keeps st') : b.Keeps reservable (b.put i st st') where
  store := Body.put_store h k.toKeepsStore
  block l := l.put h k.params
  caused caused := Body.put_haltsCaused caused (k.life (caused i st h)).1
  reserved caused fits := (Body.put_reservedSum_le h k.params (k.life (caused i st h)).2).trans fits

theorem Body.Keeps.modify {f : Stream → Stream} (k : ∀ st, b.stream i = some st → st.Keeps (f st)) :
    b.Keeps reservable (b.modify i f) := by
  cases h : b.stream i with
  | none =>
    rw [Body.modify_none h]
    exact .refl _ _
  | some st =>
    rw [Body.modify_some h]
    exact .put h (k st h)

theorem Body.Keeps.foldl {α : Type} {step : Body → α → Body} (keeps : ∀ b a, Body.Keeps reservable b (step b a))
    (l : List α) (b : Body) : b.Keeps reservable (l.foldl step b) :=
  foldl_invariant (b.Keeps reservable) (fun x a h => h.trans (keeps x a)) l b (.refl _ _)

theorem Body.Keeps.modifyAll {f : Stream → Stream} (k : ∀ st : Stream, st.Keeps (f st)) (b : Body) :
    b.Keeps reservable (b.modifyAll f) :=
  .foldl (fun _ _ => .modify fun st _ => k st) _ b

/-! ### The frame that is arriving -/

/-- No buffer is RECEIVING where the arriving frame has claimed none. -/
theorem StoreLaw.rx (l : StoreLaw b.alone) (rx : Option Reception)
    (same : ∀ j k, b.rx.map Reception.claims = some (j, some k) → rx.map Reception.claims = some (j, some k))
    (claimed : ∀ r ∈ rx, ∀ k ∈ r.claim, ∃ r₀ ∈ b.rx, r₀.header = r.header ∧ r₀.claim = r.claim) :
    StoreLaw { b with rx := rx }.alone where
  buffers := l.buffers
  receiving j x hx k hk := same j k (l.receiving j x hx k hk)
  claimed r hr k hk := by
    obtain ⟨r₀, hr₀, header, claim⟩ := claimed r hr k hk
    rw [← header]
    exact l.claimed r₀ hr₀ k (claim ▸ hk)
  lane := l.lane

/-- A frame without a claim comes, goes or counts. -/
theorem Body.Keeps.unclaimed {rx : Option Reception} (before : ∀ r ∈ b.rx, r.claim = none)
    (after : ∀ r ∈ rx, r.claim = none) : b.Keeps reservable { b with rx := rx } := by
  refine .of_streams rfl rfl fun l => l.rx rx (fun j k claims => ?_) fun r hr k hk => ?_
  · obtain ⟨r, hr, claims⟩ := Option.map_eq_some_iff.mp claims
    have claim := congrArg Prod.snd claims
    simp [Reception.claims, before r hr] at claim
  · rw [after r hr] at hk
    cases hk

/-- More of the frame has arrived. -/
theorem Body.Keeps.arrived {r : Reception} (h : b.rx = some r) (bytes : List Byte) :
    b.Keeps reservable { b with rx := some { r with arrived := bytes } } := by
  refine .of_streams rfl rfl fun l => l.rx _ (fun j k => ?_) fun r' hr' k hk => ?_
  · rw [h]
    exact id
  · cases hr'
    exact ⟨r, h, rfl, rfl⟩

/-- The block map and the reservations after a store event with what becomes of the arriving frame. -/
theorem Body.Keeps.putWith {rx : Option Reception} (h : b.stream i = some st)
    (same : (st'.params, st'.state, st'.cause) = (st.params, st.state, st.cause))
    (store : StoreLaw b.alone → StoreLaw { b.put i st st' with rx := rx }.alone) :
    b.Keeps reservable { b.put i st st' with rx := rx } := by
  simp only [Prod.mk.injEq] at same
  obtain ⟨params, state, cause⟩ := same
  have may : st'.mayHalt = st.mayHalt := by simp only [Stream.mayHalt, state, cause]
  refine ⟨store, fun l => (l.put h params).of_streams rfl rfl, fun caused => ?_, fun _ fits => ?_⟩
  · refine Body.put_haltsCaused (b := b) caused ?_
    simpa only [Stream.haltCaused, state, cause] using caused i st h
  · exact (Body.put_reservedSum_le h params fun m => may ▸ m).trans fits

/-- A store event that keeps the law of the stream's buffers where the law of the store holds. -/
theorem Body.Keeps.putLawful (h : b.stream i = some st)
    (same : (st'.params, st'.state, st'.cause) = (st.params, st.state, st.cause))
    (keeps : StoreLaw b.alone → st.KeepsStore st') : b.Keeps reservable (b.put i st st') := by
  have rx : { b.put i st st' with rx := b.rx } = b.put i st st' := by simp only [Body.put_eq]
  rw [← rx]
  exact .putWith h same fun l => (Body.put_store h (keeps l) l).of_body rx

/-- The RECEIVING buffers of the stream for which the arriving frame has a claim are the one claimed. -/
theorem StoreLaw.receiving_iff {r : Reception} {k : Nat} (l : StoreLaw b.alone) (rx : b.rx = some r)
    (claim : r.claim = some k) (h : b.stream r.header.stream = some st) (n : Nat) :
    (st.buffer n).isReceiving = true ↔ n = k := by
  constructor
  · intro receives
    have claims := l.receiving _ st h n receives
    simp only [Body.alone, rx, Option.map_some, claim, Option.some.injEq, Prod.mk.injEq, true_and] at claims
    exact claims.symm
  · rintro rfl
    obtain ⟨x, hx, receives, -⟩ := l.claimed r rx n claim
    obtain rfl : x = st := Option.some.inj (Eq.trans hx.symm h)
    exact receives

/-- What the law says of the buffer that the arriving frame has claimed (R38). -/
theorem StoreLaw.claimed_stream {r : Reception} {k : Nat} (l : StoreLaw b.alone) (rx : b.rx = some r)
    (claim : r.claim = some k) (h : b.stream r.header.stream = some st) :
    r.header.length ≤ st.maxLen ∧ r.header.cls = st.cls ∧ st.dir = .inbound := by
  obtain ⟨x, hx, -, rest⟩ := l.claimed r rx k claim
  obtain rfl : x = st := Option.some.inj (Eq.trans hx.symm h)
  exact rest

/-- The claimed buffer takes another state: the frame is gone, or it goes on with its claim on a buffer still RECEIVING
(R38, R39). -/
theorem StoreLaw.claimedMoves {r : Reception} {k : Nat} {new : Buffer} {rx' : Option Reception} (l : StoreLaw b.alone)
    (rx : b.rx = some r) (claim : r.claim = some k) (h : b.stream r.header.stream = some st)
    (params : st'.params = st.params) (law : BufferLaw st') (buffer : st'.buffer = Function.update st.buffer k new)
    (after : rx' = none ∧ new.isReceiving = false ∨
      (∃ bytes, rx' = some { r with arrived := bytes }) ∧ new.isReceiving = true) :
    StoreLaw { b.put r.header.stream st st' with rx := rx' }.alone := by
  have receives := (l.receiving_iff rx claim h k).mpr rfl
  refine l.put h params law (fun n queued => ?_) (fun n now_receives => ?_) (fun j n other claims => ?_)
    fun r' hr' n hn => ?_
  · have e : n ≠ k := by
      rintro rfl
      simp [(Buffer.unqueued_of_isReceiving receives).2.1] at queued
    exact .inl (by simpa [buffer, e] using queued)
  · by_cases e : n = k
    · subst e
      rcases after with ⟨-, gone⟩ | ⟨⟨bytes, rfl⟩, -⟩
      · simp [buffer, gone] at now_receives
      · exact congrArg (fun c => some (r.header.stream, c)) claim
    · exact absurd ((l.receiving_iff rx claim h n).mp (by simpa [buffer, e] using now_receives)) e
  · rw [rx, Option.map_some, Option.some.injEq, Reception.claims, Prod.mk.injEq] at claims
    exact absurd claims.1.symm other
  · rcases after with ⟨rfl, -⟩ | ⟨⟨bytes, rfl⟩, still⟩ <;> cases hr'
    obtain rfl : n = k := Option.some.inj (Eq.trans hn.symm claim)
    exact .inl ⟨rfl, by simpa [buffer] using still, l.claimed_stream (r := r) rx claim h⟩

/-- The claimed buffer is one of the stream's. -/
theorem StoreLaw.claimed_lt {r : Reception} {k : Nat} (l : StoreLaw b.alone) (rx : b.rx = some r)
    (claim : r.claim = some k) (h : b.stream r.header.stream = some st) : k < st.buffers.length :=
  Stream.lt_of_buffer_ne_free fun free => by
    have receives := (l.receiving_iff rx claim h k).mpr rfl
    rw [free] at receives
    cases receives

/-- The claim of the arriving frame is undone (R39, R110). -/
theorem Body.keeps_undoClaim (b : Body) : b.Keeps reservable b.undoClaim := by
  unfold Body.undoClaim
  split
  · next r rx =>
    split
    · next k claim =>
      cases h : b.stream r.header.stream with
      | none =>
        rw [Body.modify_none h]
        refine .of_streams rfl rfl fun l => ?_
        obtain ⟨x, hx, -⟩ := l.claimed r rx k claim
        exact absurd (hx.symm.trans h) nofun
      | some st =>
        rw [Body.modify_some h]
        refine .putWith h (by simp [Stream.params, Stream.freeBuffer]) fun l => ?_
        refine l.claimedMoves rx claim h (new := .free) (by simp [Stream.params, Stream.freeBuffer])
          (l.buffers _ st h).freeBuffer (funext fun n => ?_) (.inl ⟨rfl, rfl⟩)
        rw [Stream.freeBuffer_buffer, Function.update_apply]
    · next claim =>
      refine .unclaimed (fun r' hr' => ?_) nofun
      obtain rfl : r = r' := Option.some.inj (rx.symm.trans hr')
      exact claim
  · exact .refl _ b

theorem Body.undoClaim_rx (b : Body) : b.undoClaim.rx = none := by
  unfold Body.undoClaim
  split
  · rfl
  · next silent => exact silent

/-- A DATA header claims the FREE buffer with the lowest index, or none (R38). -/
theorem Body.keeps_headerArrives (up : Bool) (d : DataHeader) (b : Body) :
    b.Keeps reservable (b.headerArrives up d) := by
  have silent := b.undoClaim_rx
  have bare : b.undoClaim.Keeps reservable
      { b.undoClaim with rx := some { header := d, arrived := [], claim := none } } :=
    .unclaimed (by rw [silent]; nofun) fun r hr => by cases hr; rfl
  refine b.keeps_undoClaim.trans ?_
  unfold Body.headerArrives
  dsimp only
  split
  · next st h =>
    split
    · next takes =>
      split
      · next k free =>
        obtain ⟨-, receives, fits⟩ := takes
        obtain ⟨dir, cls⟩ : st.dir = .inbound ∧ st.cls = d.cls := by simpa [Stream.receivesClass] using receives
        obtain ⟨hk, free⟩ := Stream.of_freeIndex free
        have buffer : (st.setBuffer k (.receiving [])).buffer = Function.update st.buffer k (.receiving []) :=
          Stream.buffer_of_set rfl hk
        have params : (st.setBuffer k (.receiving [])).params = st.params := by
          simp [Stream.params, Stream.setBuffer]
        refine .putWith h (congrArg (fun p => (p, st.state, st.cause)) params) fun l => ?_
        have none_receives : ∀ n, (st.buffer n).isReceiving = false := by
          intro n
          by_contra receives
          have claims := l.receiving _ st h n (by simpa using receives)
          simp [Body.alone, silent] at claims
        refine l.put h params ?_ (fun n queued => ?_) (fun n receives => ?_) (fun j n _ claims => ?_)
          fun r hr n hn => ?_
        · obtain ⟨range, packets, lists⟩ := (bufferLaw_iff st).mp (l.buffers _ st h)
          refine (bufferLaw_iff _).mpr ⟨by simpa [Stream.inRange, Stream.setBuffer] using range, ?_, lists⟩
          rw [buffer]
          refine packets.replace k _ (by rw [dir]; rfl) (Nat.zero_le _) (by rw [free]; rfl) (fun _ n _ => ?_) nofun
          have not_filling : (st.buffer n).isFilling = false := by
            by_contra fills
            have out := Buffer.outbound_of_suits (packets.suits n) (by simp [Buffer.isOutbound, fills])
            simp [dir] at out
          simp [Buffer.isGrowing, none_receives n, not_filling]
        · rw [buffer]
          by_cases e : n = k
          · subst e
            rw [free] at queued
            cases queued
          · exact .inl (by simpa [e] using queued)
        · rw [buffer] at receives
          by_cases e : n = k
          · subst e
            rfl
          · simp [e, none_receives n] at receives
        · rw [silent] at claims
          cases claims
        · cases hr
          cases hn
          exact .inl ⟨rfl, by simp [buffer, Buffer.isReceiving], fits, cls.symm, dir⟩
      · exact bare
    · exact bare
  · exact bare

/-- Further bytes of the frame count in the claimed buffer (R38). -/
theorem Body.keeps_payloadArrives (up : Bool) (bytes : List Byte) (b : Body) :
    b.Keeps reservable (b.payloadArrives up bytes) := by
  unfold Body.payloadArrives
  split
  · next r rx =>
    dsimp only
    split
    · next k claim =>
      split
      · cases h : b.stream r.header.stream with
        | none =>
          rw [Body.modify_none h]
          exact .arrived rx _
        | some st =>
          rw [Body.modify_some h]
          let now := (r.arrived ++ bytes).take r.header.length
          have params : (st.setBuffer k (.receiving now)).params = st.params := by
            simp [Stream.params, Stream.setBuffer]
          refine .putWith h (congrArg (fun p => (p, st.state, st.cause)) params) fun l => ?_
          have receives := (l.receiving_iff rx claim h k).mpr rfl
          obtain ⟨fits, -, dir⟩ := l.claimed_stream rx claim h
          have buffer : (st.setBuffer k (.receiving now)).buffer = Function.update st.buffer k (.receiving now) :=
            Stream.buffer_of_set rfl (l.claimed_lt rx claim h)
          refine l.claimedMoves rx claim h params ?_ buffer (.inr ⟨⟨now, rfl⟩, rfl⟩)
          obtain ⟨range, packets, lists⟩ := (bufferLaw_iff st).mp (l.buffers _ st h)
          refine (bufferLaw_iff _).mpr ⟨by simpa [Stream.inRange, Stream.setBuffer] using range, ?_, lists⟩
          rw [buffer]
          refine packets.replace k _ (by rw [dir]; rfl) ?_ (Buffer.unqueued_of_isReceiving receives).1.symm
            (fun _ n other => ?_) nofun
          · exact (List.length_take_le _ _).trans fits
          · by_contra grows
            exact other (packets.oneGrowing n k (by simpa using grows) (by simp [Buffer.isGrowing, receives]))
      · exact .arrived rx _
    · exact .arrived rx _
  · exact .refl _ b

/-- A frame that is kept becomes HELD at the tail of the held queue (R39). -/
theorem Body.keeps_kept {r : Reception} {k : Nat} (rx : b.rx = some r) (claim : r.claim = some k)
    (h : b.stream r.header.stream = some st) {data : List Byte} (length : data.length = r.header.length) {mark : Bool}
    {value : ArrivalValue} {cycle : CycleNum} {gap : Bool} {seq : SeqState} :
    b.Keeps reservable ({ b with rx := none }.put r.header.stream st { st with
      buffers := st.buffers.set k (.held data mark value cycle gap), queue := st.queue ++ [k], seq := seq }) := by
  have together : ∀ new, { b with rx := none }.put r.header.stream st new =
      { b.put r.header.stream st new with rx := none } := fun new => by simp only [Body.put_eq]
  rw [together]
  refine .putWith h (by simp [Stream.params]) fun l => ?_
  have receives := (l.receiving_iff rx claim h k).mpr rfl
  obtain ⟨fits, -, dir⟩ := l.claimed_stream rx claim h
  have buffer : Stream.buffer { st with
      buffers := st.buffers.set k (.held data mark value cycle gap), queue := st.queue ++ [k], seq := seq } =
      Function.update st.buffer k (.held data mark value cycle gap) :=
    Stream.buffer_of_set rfl (l.claimed_lt rx claim h)
  refine l.claimedMoves rx claim h (by simp [Stream.params]) ?_ buffer (.inl ⟨rfl, rfl⟩)
  obtain ⟨range, packets, lists⟩ := (bufferLaw_iff st).mp (l.buffers _ st h)
  refine (bufferLaw_iff _).mpr ⟨by simpa [Stream.inRange] using range, ?_, lists⟩
  rw [buffer]
  exact packets.append (by rw [dir]; rfl) (length.trans_le fits) (Buffer.unqueued_of_isReceiving receives).1 rfl rfl rfl

end

end Sys2Proof.Machine
end

section
/-! SUPPORT. The opening, the release and the resumption of a stream keep the laws of the store, the block map and the
reservations (R7, R8, R17, R26, R28, R30). -/

namespace Sys2Proof.Machine

open Sys2Proof

section

variable {reservable : Nat} {b b' : Body} {i : StreamId} {st : Stream}

/-! ### Owners of blocks -/

/-- No two blocks have one owner, block by block. -/
theorem owners_nodup_iff (blocks : Vector (Option Owner) 96) : (blocks.toList.filterMap id).Nodup ↔
    ∀ (k l : Fin 96) (w : Owner), blocks[k] = some w → blocks[l] = some w → k = l := by
  rw [toList_eq_map_finRange, List.filterMap_map, List.Nodup, List.pairwise_filterMap]
  simp only [Function.comp_apply, id_eq]
  constructor
  · intro apart k l w hk hl
    have symm : Std.Symm fun k l : Fin 96 => ∀ w, blocks[k] = some w → ∀ w', blocks[l] = some w' → w ≠ w' :=
      ⟨fun _ _ h w hw w' hw' => (h w' hw' w hw).symm⟩
    by_contra other
    exact apart.forall (List.mem_finRange k) (List.mem_finRange l) other w hk w hl rfl
  · intro one
    refine (List.nodup_finRange 96).pairwise_of_forall_ne fun k _ l _ other w hk w' hl same => ?_
    exact other (one k l w hk (same ▸ hl))

theorem countP_ownedBy_congr {blocks blocks' : Vector (Option Owner) 96}
    (same : ∀ k : Fin 96, ownedBy i blocks'[k] = ownedBy i blocks[k]) :
    blocks'.toList.countP (ownedBy i) = blocks.toList.countP (ownedBy i) := by
  rw [toList_eq_map_finRange, toList_eq_map_finRange, List.countP_map, List.countP_map]
  exact congrArg (List.countP · _) (funext same)

theorem ownerOf_stream (i : StreamId) (maxLen n : Nat) : (ownerOf i maxLen n).stream = i := by
  unfold ownerOf
  split <;> rfl

theorem ownerOf_injective (i : StreamId) (maxLen : Nat) : Function.Injective (ownerOf i maxLen) := by
  intro m n same
  unfold ownerOf at same
  split at same <;> simp only [Owner.mk.injEq, true_and, and_true] at same
  · exact same
  · obtain ⟨half, odd⟩ := same
    have parity : m % 2 = n % 2 := by
      rcases Nat.mod_two_eq_zero_or_one m with hm | hm <;> rcases Nat.mod_two_eq_zero_or_one n with hn | hn <;>
        simp_all
    omega

theorem releaseBlocks_getElem (i : StreamId) (blocks : Vector (Option Owner) 96) (k : Fin 96) :
    (releaseBlocks i blocks)[k] = if ownedBy i blocks[k] then none else blocks[k] := by
  simp [releaseBlocks]

/-! ### Release -/

theorem Body.release_stream_self {up : Bool} : (b.release up i st).stream i = none := by
  simp [Body.stream, Body.release_streams]

theorem Body.release_stream_ne {j : StreamId} {up : Bool} (other : j ≠ i) :
    (b.release up i st).stream j = b.stream j := by
  have apart : ¬i.val = j.val := fun e => other (Fin.ext e.symm)
  simp [Body.stream, Body.release_streams, apart]

/-- A stream that is released takes its blocks, its reservation, its claim and its frame on the lane with it (R26,
R30). -/
theorem Body.keeps_release (up : Bool) (i : StreamId) (st : Stream) (b : Body) :
    b.Keeps reservable (b.release up i st) := by
  have self : (b.release up i st).stream i = none := Body.release_stream_self
  have still_open : ∀ {j x}, (b.release up i st).stream j = some x → j ≠ i ∧ b.stream j = some x := by
    intro j x hx
    have other : j ≠ i := by
      rintro rfl
      rw [self] at hx
      cases hx
    exact ⟨other, (Body.release_stream_ne other).symm.trans hx⟩
  refine ⟨fun l => ⟨?_, ?_, ?_, ?_⟩, fun l => ⟨fun j => ?_, ?_⟩, fun caused j x hx => ?_, fun _ fits => ?_⟩
  · exact fun j x hx => l.buffers j x (still_open hx).2
  · intro j x hx k hk
    obtain ⟨other, before⟩ := still_open hx
    obtain ⟨r, hr, claims⟩ := Option.map_eq_some_iff.mp (l.receiving j x before k hk)
    have stream : r.header.stream = j := congrArg Prod.fst claims
    show ((b.release up i st).rx.map _) = _
    rw [Body.release_rx, show b.rx = some r from hr, dropClaim, if_neg (stream ▸ other)]
    exact congrArg some claims
  · intro r hr k hk
    replace hr : dropClaim i b.rx = some r := (Body.release_rx up i st b) ▸ hr
    unfold dropClaim at hr
    split at hr <;> cases hr
    next r₀ hr₀ =>
    split at hk
    · cases hk
    · next other =>
      rw [if_neg other]
      obtain ⟨x, hx, rest⟩ := l.claimed r₀ hr₀ k hk
      exact ⟨x, (Body.release_stream_ne other).trans hx, rest⟩
  · intro d k p lane
    replace lane : cutStream i b.lt.lane = some (.data d k p) := (Body.release_lane up i st b) ▸ lane
    unfold cutStream at lane
    split at lane
    · next held =>
      split at lane <;> cases lane
      next other =>
      obtain ⟨x, hx, queued⟩ := l.lane d k p held
      exact ⟨x, (Body.release_stream_ne other).trans hx, queued⟩
    · next no_data => exact absurd lane (no_data d k p)
  · have owned := l.owned j
    simp only [Body.alone] at owned ⊢
    rw [Body.release_blocks]
    by_cases e : j = i
    · subst e
      rw [self]
      refine List.countP_eq_zero.mpr fun o ho => ?_
      obtain ⟨o', -, rfl⟩ := by simpa [releaseBlocks] using ho
      split
      · simp [ownedBy]
      · assumption
    · rw [Body.release_stream_ne e, ← owned]
      refine countP_ownedBy_congr fun k => ?_
      rw [releaseBlocks_getElem]
      split
      · next mine =>
        cases ho : b.blocks[k] with
        | none => rfl
        | some w =>
          rw [ho] at mine
          have stream : w.stream = i := by simpa [ownedBy] using mine
          simp [ownedBy, stream, Ne.symm e]
      · rfl
  · have one := (owners_nodup_iff _).mp l.owners
    simp only [Body.alone, Body.release_blocks] at one ⊢
    refine (owners_nodup_iff _).mpr fun k m w hk hm => ?_
    rw [releaseBlocks_getElem] at hk hm
    split at hk <;> [cases hk; skip]
    split at hm <;> [cases hm; skip]
    exact one k m w hk hm
  · exact caused j x (still_open hx).2
  · refine le_trans (Body.reservedSum_le fun j => ?_) fits
    by_cases e : j = i
    · subst e
      rw [Body.reservedBy, self]
      exact Nat.zero_le _
    · rw [Body.reservedBy, Body.release_stream_ne e, Body.reservedBy]

/-! ### Opening -/

/-- A stream that takes up a reservation adds it to the sum (R7, R108). -/
theorem Body.reservedSum_add (unreserved : b.reservedBy i = 0) (others : ∀ j, j ≠ i → b'.reservedBy j = b.reservedBy j) :
    b'.reservedSum = b.reservedSum + b'.reservedBy i := by
  have added : ∀ j, b'.reservedBy j = b.reservedBy j + if j = i then b'.reservedBy i else 0 := by
    intro j
    by_cases e : j = i
    · simp [e, unreserved]
    · simp [e, others j e]
  rw [Body.reservedSum_eq, Body.reservedSum_eq, ← Fin.sum_univ_def, ← Fin.sum_univ_def]
  simp [Finset.sum_congr rfl fun j _ => added j, Finset.sum_add_distrib]

/-- A stream's reservation is none or the one it would ask room for. -/
theorem Stream.reserved_le {sum : Nat} (room : st.isScheduledOut = true → sum + st.reservation ≤ reservable)
    (fits : sum ≤ reservable) : (sum + if st.holdsReservation then st.reservation else 0) ≤ reservable := by
  by_cases holds : st.holdsReservation = true
  · rw [if_pos holds]
    exact room (Bool.and_eq_true_iff.mp holds).1
  · rwa [if_neg holds, Nat.add_zero]

theorem Stream.opened_buffer (up : Bool) (p : OpenParams) (k : Nat) : (Stream.opened up p).buffer k = .free := by
  simp [Stream.opened, Stream.buffer, List.getD_eq_getElem?_getD, List.getElem?_replicate]
  split <;> rfl

/-- A stream opened with parameters in range has lawful buffers: all FREE (R4, R8). -/
theorem Stream.opened_law {up : Bool} {p : OpenParams} {ringCount : Nat} (inRange : openInRange ringCount p = true) :
    BufferLaw (Stream.opened up p) := by
  obtain ⟨-, ⟨-, low, high⟩, counts, -⟩ := (openInRange_iff ringCount p).mp inRange
  refine (bufferLaw_iff _).mpr ⟨⟨low, high, ?_⟩, ?_, ⟨fun _ => ⟨rfl, rfl⟩, fun _ => ⟨rfl, rfl⟩⟩⟩
  · rw [Stream.opened_buffers_length]
    rcases counts with h | h | h <;> rw [h] <;> decide
  · have free := Stream.opened_buffer up p
    refine ⟨fun k => ?_, fun k => ?_, fun j k hj => ?_, List.nodup_nil, fun k => ?_, fun k hk => ?_⟩
    · rw [free]
      cases (Stream.opened up p).dir <;> rfl
    · rw [free]
      exact Nat.zero_le _
    · rw [free] at hj
      cases hj
    · rw [free]
      exact ⟨nofun, nofun⟩
    · rw [free] at hk
      cases hk

/-- A stream is opened in a CLOSED place, in range, with room for its reservation and its blocks (R5, R8). -/
theorem Body.keeps_openAt {up : Bool} {p : OpenParams} {ringCount : Nat} (shut : b.stream i = none)
    (inRange : openInRange ringCount p = true)
    (fits : (Stream.opened up p).isScheduledOut = true → b.reservedSum + (Stream.opened up p).reservation ≤ reservable)
    (room : blocksNeeded (Stream.opened up p).maxLen (Stream.opened up p).buffers.length ≤ freeCount b.blocks) :
    b.Keeps reservable (b.openAt up i (Stream.opened up p)) := by
  have self := Body.openAt_stream_self up i (Stream.opened up p) b
  have other : ∀ j, j ≠ i → (b.openAt up i (Stream.opened up p)).stream j = b.stream j := fun j e =>
    Body.openAt_stream_ne e up _ b
  have rx : (b.openAt up i (Stream.opened up p)).rx = b.rx := by cases up <;> rfl
  have lane : (b.openAt up i (Stream.opened up p)).lt.lane = b.lt.lane := by cases up <;> rfl
  have open_ne : ∀ {j x}, b.stream j = some x → j ≠ i := by
    rintro j x hx rfl
    rw [shut] at hx
    cases hx
  refine ⟨fun l => ⟨?_, ?_, ?_, ?_⟩, fun l => ⟨fun j => ?_, ?_⟩, fun caused j x hx => ?_, fun _ within => ?_⟩
  · intro j x hx
    replace hx : (b.openAt up i (Stream.opened up p)).stream j = some x := hx
    by_cases e : j = i
    · subst e
      obtain rfl := Option.some.inj (self.symm.trans hx)
      exact Stream.opened_law inRange
    · exact l.buffers j x ((other j e).symm.trans hx)
  · intro j x hx k hk
    replace hx : (b.openAt up i (Stream.opened up p)).stream j = some x := hx
    by_cases e : j = i
    · subst e
      obtain rfl := Option.some.inj (self.symm.trans hx)
      rw [Stream.opened_buffer] at hk
      cases hk
    · show (Option.map _ (b.openAt up i (Stream.opened up p)).rx) = _
      rw [rx]
      exact l.receiving j x ((other j e).symm.trans hx) k hk
  · intro r hr k hk
    obtain ⟨x, hx, rest⟩ := l.claimed r (rx ▸ hr) k hk
    exact ⟨x, (other _ (open_ne hx)).trans hx, rest⟩
  · intro d k q data
    obtain ⟨x, hx, queued⟩ := l.lane d k q (lane ▸ data)
    exact ⟨x, (other _ (open_ne hx)).trans hx, queued⟩
  · have owned := l.owned j
    simp only [Body.alone, Body.openAt_blocks] at owned ⊢
    by_cases e : j = i
    · subst e
      rw [self]
      rw [shut] at owned
      refine countP_ownedBy_allocate (fun k => ?_) room
      have none_owned := List.countP_eq_zero.mp owned b.blocks[k] (by simp)
      simpa using none_owned
    · rw [other j e, ← owned]
      refine countP_ownedBy_congr fun k => ?_
      rw [allocate_getElem]
      split
      · next given => simp [given.1, ownedBy, ownerOf_stream, Ne.symm e]
      · rfl
  · have one := (owners_nodup_iff _).mp l.owners
    have owned := l.owned i
    simp only [Body.alone, shut] at one owned
    simp only [Body.alone, Body.openAt_blocks]
    have unowned : ∀ (k : Fin 96) (w : Owner), b.blocks[k] = some w → w.stream ≠ i := by
      intro k w hk mine
      have none_owned := List.countP_eq_zero.mp owned b.blocks[k] (by simp)
      simp [hk, ownedBy, mine] at none_owned
    refine (owners_nodup_iff _).mpr fun k m w hk hm => ?_
    rw [allocate_getElem] at hk hm
    split at hk <;> split at hm
    · next freeK freeM =>
      have place := ownerOf_injective _ _ (Option.some.inj (hk.trans hm.symm))
      rw [← idxOf_freeBlocks freeK.1, ← idxOf_freeBlocks freeM.1] at place
      exact (List.idxOf_inj (mem_freeBlocks.mpr freeK.1)).mp place
    · next freeK _ =>
      exact absurd (Option.some.inj hk ▸ ownerOf_stream i _ _) (unowned m w hm)
    · next freeM =>
      exact absurd (Option.some.inj hm ▸ ownerOf_stream i _ _) (unowned k w hk)
    · exact one k m w hk hm
  · by_cases e : j = i
    · subst e
      obtain rfl := Option.some.inj (self.symm.trans hx)
      exact .of_ne nofun nofun
    · exact caused j x ((other j e).symm.trans hx)
  · have before : b.reservedBy i = 0 := by rw [Body.reservedBy, shut]
    rw [Body.reservedSum_add before fun j e => by rw [Body.reservedBy, other j e, Body.reservedBy],
      Body.reservedBy_some self]
    exact Stream.reserved_le fits within

/-! ### Resumption -/

/-- A HALTED stream resumes with room for its reservation (R17). -/
theorem Body.keeps_resumed (h : b.stream i = some st) (halted : st.state = .halted)
    (fits : st.isScheduledOut = true → b.reservedSum + st.reservation ≤ reservable) :
    b.Keeps reservable (b.put i st st.resumed) where
  store := Body.put_store h (.of_plain rfl rfl fun l => l.oneWay)
  block l := l.put h rfl
  caused caused := Body.put_haltsCaused caused (.of_ne nofun nofun)
  reserved _ within := by
    have before : b.reservedBy i = 0 := by
      rw [Body.reservedBy_some h, if_neg (by simp [Stream.holdsReservation, Stream.mayHalt, halted])]
    rw [Body.reservedSum_add before fun j e => Body.put_reservedBy_ne e, Body.put_reservedBy_self]
    exact Stream.reserved_le (st := st.resumed) fits within

end

end Sys2Proof.Machine
end

section
/-! SUPPORT. The blocks' own operations on the body, and all that follows from an event, keep the laws of the store, the
block map and the reservations. -/

namespace Sys2Proof.Machine

open Sys2Proof

section

variable {reservable : Nat}

/-! ### Requests, notices and halts -/

theorem Body.keeps_completePending (pending : Option Nat) (status : Status) (b : Body) :
    b.Keeps reservable (b.completePending pending status) := by
  cases pending <;> exact .aside rfl

theorem Body.keeps_raise (source : Option StreamId) (d : Detail) (b : Body) : b.Keeps reservable (b.raise source d) :=
  .aside rfl

theorem Body.keeps_addDue (f : ControlFrame) (b : Body) : b.Keeps reservable (b.addDue f) := .aside rfl

theorem Body.keeps_halt (i : StreamId) (cause : HaltCause) (b : Body) : b.Keeps reservable (b.halt i cause) := by
  unfold Body.halt
  split
  · next h =>
    split
    · exact (Body.Keeps.put h (Stream.keeps_beginHalt cause _)).trans (.aside rfl)
    · exact .refl _ b
  · exact .refl _ b

theorem Body.keeps_haltOrAbandon (i : StreamId) (cause : HaltCause) (b : Body) :
    b.Keeps reservable (b.haltOrAbandon i cause) := by
  unfold Body.haltOrAbandon
  split
  · next h =>
    split
    · exact b.keeps_halt i cause
    · split
      · exact .put h (Stream.keeps_abandon _)
      · exact .refl _ b
  · exact .refl _ b

theorem Body.keeps_resynchronise (up : Bool) (i : StreamId) (b : Body) :
    b.Keeps reservable (b.resynchronise up i) := by
  have reset : b.Keeps reservable (b.modify i Stream.resetSeq) := .modify fun st _ => st.keeps_resetSeq
  unfold Body.resynchronise
  dsimp only
  split
  · exact reset.trans (.aside rfl)
  · exact reset

/-! ### The internal actions of the streams -/

theorem Body.keeps_act {env : Env} {i : StreamId} {st st' : Stream} {e : Effect} {b : Body} (h : b.stream i = some st)
    (act : st.internal env i = some (st', e)) : b.Keeps reservable (b.act env i st st' e) := by
  refine (Body.Keeps.put h (Stream.keeps_internal act)).trans ?_
  unfold Body.act Body.applyEffect
  split
  · exact .refl _ _
  · exact .aside rfl
  · exact .aside rfl
  · exact Body.keeps_release env.up i st' _

theorem Body.keeps_runStreams (env : Env) (b : Body) : b.Keeps reservable (b.runStreams env) :=
  Body.runStreams_invariant (P := b.Keeps reservable) (fun _ _ _ _ _ k h act => k.trans (Body.keeps_act h act)) b
    (.refl _ b)

/-! ### The Ring Interface -/

theorem Body.keeps_setHeldStage (src : Source) (stage : HeldStage) (b : Body) :
    b.Keeps reservable (b.setHeldStage src stage) := by
  cases src
  · exact .modify fun _ _ => .aside rfl rfl
  · exact .aside rfl

theorem Body.keeps_joinWaiting (b : Body) (src : Source) : b.Keeps reservable (b.joinWaiting src) := by
  unfold Body.joinWaiting
  split
  · split
    · exact (Body.keeps_setHeldStage src .waiting _).after (.aside rfl)
    · exact .refl _ b
  · exact .refl _ b

theorem Body.keeps_issueCompletions (n : Nat) (c : Fin 4) (b : Body) :
    b.Keeps reservable (b.issueCompletions n c) := by
  induction n generalizing b with
  | zero => exact .refl _ b
  | succ n ih =>
    rw [Body.issueCompletions]
    split
    · split
      · split
        · split
          · exact (ih _).after ((Body.keeps_setHeldStage _ .writing _).after (.aside rfl))
          · exact (ih _).after (.aside rfl)
        · exact .refl _ b
      · exact .refl _ b
    · exact .refl _ b

theorem Body.keeps_issueEvents (n : Nat) (b : Body) : b.Keeps reservable (b.issueEvents n) := by
  induction n generalizing b with
  | zero => exact .refl _ b
  | succ n ih =>
    rw [Body.issueEvents]
    split
    · split
      · exact (ih _).after (.aside rfl)
      · exact .refl _ b
    · exact .refl _ b

theorem Body.keeps_fetchAdmin (env : Env) (n : Nat) (b : Body) : b.Keeps reservable (b.fetchAdmin env n) := by
  induction n generalizing b with
  | zero => exact .refl _ b
  | succ n ih =>
    rw [Body.fetchAdmin]
    split
    · split
      · exact (ih _).after (.aside rfl)
      · exact .refl _ b
    · exact .refl _ b

theorem Body.keeps_notifyPart (ring : Nat) (index : BitVec 16) (arm : Bool) (r : PartRing) {store : PartRing → Body → Body}
    (b : Body) (aside : ∀ r, b.Keeps reservable (store r b)) :
    b.Keeps reservable (b.notifyPart ring index arm r store) := by
  unfold Body.notifyPart
  split
  · exact (aside _).trans (.aside rfl)
  · exact .aside rfl

theorem Body.keeps_notify (running : Bool) (ring : Nat) (index : BitVec 16) (arm : Bool) (b : Body) :
    b.Keeps reservable (b.notify running ring index arm) := by
  have bad : b.Keeps reservable (b.badNotify ring index) := .aside rfl
  unfold Body.notify
  split
  · exact .refl _ b
  split
  · split
    · split
      · exact .aside rfl
      · exact bad
    · exact bad
  split
  · dsimp only
    split
    · next h =>
      split
      · exact .put h (.aside rfl rfl)
      · exact bad
    · exact bad
  split
  · dsimp only
    split
    · exact b.keeps_notifyPart _ _ _ _ fun _ => .aside rfl
    · exact bad
  split
  · split
    · exact b.keeps_notifyPart _ _ _ _ fun _ => .aside rfl
    · exact bad
  · exact bad

/-! ### The transmit lane -/

/-- The frame of a stream's turn is sent from the COMMITTED head of its queue (R115). -/
theorem Stream.of_turnFrame {st : Stream} {i : StreamId} {n : Nat} {h : DataHeader} {k : Nat} {p : List Byte}
    (frame : st.turnFrame i n = some (.data h k p)) : h.stream = i ∧ (st.buffer k).isQueuedOut = true := by
  unfold Stream.turnFrame at frame
  split at frame
  · split at frame
    · next head seq =>
      cases frame
      unfold Stream.headBuffer at head
      split at head
      · obtain ⟨rfl, committed⟩ := Prod.mk.inj (Option.some.inj head)
        exact ⟨rfl, by rw [committed]; rfl⟩
      · cases head
    · cases frame
  · cases frame

theorem Body.keeps_runTurns (n : Nat) (b : Body) : b.Keeps reservable (b.runTurns n) := by
  induction n generalizing b with
  | zero => exact .refl _ b
  | succ n ih =>
    rw [Body.runTurns]
    split
    · next i sentCount turn =>
      dsimp only
      split
      · next st h =>
        split
        · next frame =>
          obtain ⟨stream, queued⟩ := Stream.of_turnFrame frame
          refine .of_lane rfl fun _ d k q data => .inr ?_
          obtain ⟨rfl, rfl, -⟩ := by simpa using data
          exact ⟨st, stream ▸ h, queued⟩
        · split
          · exact (ih _).after (.aside rfl)
          · exact (ih _).after (.aside rfl)
      · exact (ih _).after (.aside rfl)
    · exact .refl _ b

theorem Body.keeps_scan (b : Body) : b.Keeps reservable b.scan := by
  unfold Body.scan
  split
  · next i _ =>
    split
    · next st h =>
      split
      · next st' k mark bit data head =>
        obtain ⟨keeps, queued⟩ := Stream.keeps_sendHead head
        refine (Body.Keeps.put h keeps).trans (.of_lane rfl fun _ d n p lane => .inr ?_)
        obtain ⟨rfl, rfl, -⟩ := by simpa using lane
        exact ⟨_, Body.put_stream_self .., queued⟩
      · exact .refl _ b
    · exact .refl _ b
  · exact .refl _ b

theorem Body.keeps_startDue (f : ControlFrame) (rest : List ControlFrame) (b : Body) :
    b.Keeps reservable (b.startDue f rest) := by
  cases f <;> exact .offLane rfl fun _ _ _ => nofun

theorem Body.keeps_startFrame (env : Env) (b : Body) : b.Keeps reservable (b.startFrame env) := by
  unfold Body.startFrame
  split
  · exact .refl _ b
  split
  · exact .offLane rfl fun _ _ _ => nofun
  split
  · exact b.keeps_startDue _ _
  split
  · dsimp only
    split
    · exact (b.keeps_runTurns 17).trans (Body.keeps_scan _)
    · exact b.keeps_runTurns 17
  · exact .refl _ b

/-- All that follows from an event keeps the laws. -/
theorem Body.keeps_settle (env : Env) (b : Body) : b.Keeps reservable (b.settle env) :=
  Body.settle_invariant (P := b.Keeps reservable) (fun _ _ _ _ _ k h act => k.trans (Body.keeps_act h act))
    (fun x src k => k.trans (x.keeps_joinWaiting src)) (fun x n c k => k.trans (x.keeps_issueCompletions n c))
    (fun _ k => k.trans (.aside rfl)) (fun x k => k.trans (x.keeps_startFrame env))
    (fun x n k => k.trans (x.keeps_issueEvents n)) (fun x n k => k.trans (x.keeps_fetchAdmin env n)) b (.refl _ b)

/-! ### The loss of the link and the start of a cycle -/

theorem Body.keeps_loseLinkOne (i : StreamId) (b : Body) : b.Keeps reservable (b.loseLinkOne i) :=
  (b.keeps_halt i .linkLost).trans (.modify fun st _ => st.keeps_abandon.then (.aside rfl rfl) rfl)

theorem Body.keeps_loseLinkAfter {first : Body → StreamId → Body} (keeps : ∀ b i, Body.Keeps reservable b (first b i))
    (b : Body) : b.Keeps reservable (b.loseLinkAfter first) :=
  .foldl (fun b i => (keeps b i).trans (Body.keeps_loseLinkOne i _)) _ b

theorem Body.keeps_advanceAnswer (up : Bool) (b : Body) (i : StreamId) : b.Keeps reservable (b.advanceAnswer up i) := by
  have advanced : b.Keeps reservable (b.modify i Stream.advanceAnswer) := .modify fun st _ => st.keeps_advanceAnswer
  unfold Body.advanceAnswer
  split
  · dsimp only
    split
    · exact advanced.trans ((Body.keeps_haltOrAbandon i .noAnswer _).trans (Body.keeps_resynchronise up i _))
    · exact advanced
  · exact .refl _ b

theorem Body.keeps_examine (peer : List Byte) (sum : Nat) (b : Body) : b.Keeps reservable (b.examine peer sum) := by
  rw [Body.examine_eq]
  refine Body.examinedBelow_invariant (P := fun acc => b.Keeps reservable acc.1) (.refl _ b) 16 (fun i acc _ k => ?_)
    le_rfl
  refine k.trans ?_
  cases h : acc.1.stream i with
  | none =>
    rw [Body.examineOne_none h]
    exact .refl _ _
  | some st =>
    rw [Body.examineOne_some h]
    split
    · exact .put h (.aside rfl rfl)
    · split
      · exact (Body.Keeps.put h (st.keeps_beginHalt .profileMismatch)).trans (.aside rfl)
      · exact .refl _ _

theorem Body.keeps_advanceNotices (b : Body) : b.Keeps reservable b.advanceNotices := .aside rfl

/-- The round-robin position and the notice queue are no matter of the laws. -/
theorem Body.Keeps.clearNotices {b called : Body} (h : b.Keeps reservable called) :
    b.Keeps reservable { called with lt := { called.lt with roundRobin := 15, notices := [] } } := h.trans (.aside rfl)

theorem Body.keeps_calledUp (b : Body) : b.Keeps reservable b.calledUp := by
  unfold Body.calledUp
  exact Body.Keeps.clearNotices ((Body.Keeps.modifyAll Stream.keeps_resetSeq _).after (.aside rfl))

theorem Body.keeps_abortAll (b : Body) : b.Keeps reservable b.abortAll := by
  refine .modifyAll (fun st => ?_) b
  split
  · exact .refl st
  · exact st.keeps_beginAbort

/-! ### What arrives on the link -/

/-- A frame that is kept finds its stream open (R124). -/
theorem Body.open_of_decide_keep {d : DataHeader} {claim : Option Nat} {b : Body} (h : b.decide d claim = .keep) :
    ∃ st, b.stream d.stream = some st := by
  unfold Body.decide at h
  split at h
  · cases h
  · next st opened => exact ⟨st, opened⟩

theorem Body.keeps_bestEffortEnds {r : Reception} {b : Body} (rx : b.rx = some r) (cycle : CycleNum) {data : List Byte}
    (length : data.length = r.header.length) : b.Keeps reservable (b.bestEffortEnds cycle r data) := by
  unfold Body.bestEffortEnds
  dsimp only
  split
  · exact b.keeps_undoClaim.trans (.aside rfl)
  · exact b.keeps_undoClaim.trans (.aside rfl)
  · exact b.keeps_undoClaim.trans (.aside rfl)
  · next decided =>
    split
    · next k claim =>
      obtain ⟨st, h⟩ := Body.open_of_decide_keep decided
      refine (Body.keeps_addDue _ _).after ?_
      rw [Body.modify_some (b := { b with rx := none }) h]
      exact Body.keeps_kept rx claim h length
    · exact .refl _ b

theorem Body.keeps_scheduledEnds {r : Reception} {b : Body} (rx : b.rx = some r) (cycle : CycleNum) {data : List Byte}
    (length : data.length = r.header.length) : b.Keeps reservable (b.scheduledEnds cycle r data) := by
  have missed : b.Keeps reservable
      ((b.undoClaim.modify r.header.stream Stream.setGap).raise (some r.header.stream) (.scheduleMiss true)) :=
    b.keeps_undoClaim.trans (Body.Keeps.trans (.modify fun st _ => st.keeps_setGap) (.aside rfl))
  unfold Body.scheduledEnds
  dsimp only
  split
  · exact b.keeps_undoClaim
  · next st h =>
    split
    · exact b.keeps_undoClaim
    · split
      · next k claim =>
        split
        · exact Body.keeps_kept rx claim h length
        · exact missed
      · exact missed

theorem Body.keeps_goneActs (i : StreamId) (b : Body) : b.Keeps reservable (b.goneActs i) := by
  unfold Body.goneActs
  split
  · split
    · exact b.keeps_haltOrAbandon i .peerClosed
    · exact .refl _ b
  · exact .refl _ b

theorem Body.keeps_noticeActs (i : StreamId) (kind : Byte) (b : Body) : b.Keeps reservable (b.noticeActs i kind) := by
  unfold Body.noticeActs
  split
  · split
    · refine Body.Keeps.trans ?_ (.modify fun st _ => st.keeps_resetSeq)
      split
      · exact b.keeps_haltOrAbandon i .peerClosed
      · exact .refl _ b
    · exact .refl _ b
  · split
    · exact b.keeps_haltOrAbandon i .peerClosed
    · exact .refl _ b

theorem Body.keeps_noticeAcked (i : StreamId) (kind : Byte) (b : Body) : b.Keeps reservable (b.noticeAcked i kind) := by
  unfold Body.noticeAcked
  split
  · exact .aside rfl
  · exact .refl _ b

/-! ### The ends of transfers -/

theorem Body.keeps_recordFetchEnds (i : StreamId) (slot : Nat) (result : Option (BitVec 256)) (b : Body) :
    b.Keeps reservable (b.recordFetchEnds i slot result) := by
  unfold Body.recordFetchEnds
  split
  · next h =>
    split
    · split
      · exact .put h (.aside rfl rfl)
      · exact (Body.keeps_halt i .fetchError _).after (.put h (.aside rfl rfl))
    · exact .refl _ b
  · exact .refl _ b

theorem Body.keeps_sendReadEnds (i : StreamId) (slot : Nat) (result : Option (List Byte)) (b : Body) :
    b.Keeps reservable (b.sendReadEnds i slot result) := by
  unfold Body.sendReadEnds
  split
  · next st h =>
    split
    · split
      · next r _ =>
        split
        · next data =>
          refine .put h (.of_eq rfl fun l => l.oneWay.mono rfl id (fun none_reads => ?_) id id)
          simp [none_reads]
        · exact (Body.Keeps.put h (st.keeps_readFailed _ r)).trans (Body.keeps_halt i .memoryError _)
      · exact .refl _ b
    · exact .refl _ b
  · exact .refl _ b

theorem Body.keeps_receiveWriteEnds (i : StreamId) (ok : Bool) (b : Body) :
    b.Keeps reservable (b.receiveWriteEnds i ok) := by
  unfold Body.receiveWriteEnds
  split
  · next st h =>
    split
    · next w rest writes =>
      have ended : ∀ failed, st.Keeps { st with writes := rest, writeFailed := failed } := fun _ =>
        .of_eq rfl fun l => l.oneWay.mono rfl id id id (by simp [writes])
      dsimp only
      split
      · refine .put h ?_
        split
        · exact ended _
        · exact (ended _).before rfl (Stream.keeps_countWrite w _)
      · exact (Body.Keeps.put h (ended true)).trans (Body.keeps_halt i .memoryError _)
    · exact .refl _ b
  · exact .refl _ b

theorem Body.keeps_ringWriteAccepted (kind : RingWriteKind) (b : Body) :
    b.Keeps reservable (b.ringWriteAccepted kind) := by
  unfold Body.ringWriteAccepted
  split
  · next src =>
    cases src
    · exact .modify fun st _ => st.keeps_completionWritten
    · exact .aside rfl
  · exact .refl _ b
  · exact .refl _ b

/-- The frame that ends on the lane was sent from a queued buffer (R112, R115). -/
theorem Body.keeps_frameEnds (cycle : CycleNum) (b : Body) : b.Keeps reservable (b.frameEnds cycle) := by
  have freed : b.Keeps reservable { b with lt := { b.lt with lane := none } } := .offLane rfl fun _ _ _ => nofun
  unfold Body.frameEnds
  dsimp only
  split
  · exact .refl _ b
  · split
    · exact freed.trans (.aside rfl)
    · exact freed
  · next d k p lane =>
    split
    · cases h : b.stream d.stream with
      | none =>
        rw [Body.modify_none (b := { b with lt := { b.lt with lane := none } }) h]
        exact freed
      | some st =>
        rw [Body.modify_some (b := { b with lt := { b.lt with lane := none } }) h]
        have sent : b.Keeps reservable (b.put d.stream st (st.scheduledSent k cycle)) := by
          refine .putLawful h ?_ fun l => ?_
          · unfold Stream.scheduledSent
            dsimp only
            split <;> simp [Stream.params, Stream.confirm, Stream.credit, Stream.freeBuffer]
          · obtain ⟨x, hx, queued⟩ := l.lane d k p lane
            obtain rfl : x = st := Option.some.inj (Eq.trans hx.symm h)
            exact (Stream.keeps_scheduledSent cycle queued).toKeepsStore
        refine sent.trans (.offLane ?_ ?_) <;> simp [Body.put_eq, laneAfter]
    · exact freed

end

end Sys2Proof.Machine
end

section
/-! SUPPORT. Every command keeps the laws of the store, the block map and the reservations. -/

namespace Sys2Proof.Machine

open Sys2Proof Host

/-! ### What a change of the part keeps -/

/-- The change of the part keeps the laws of the store, of the block map and of the reservations. -/
structure State.Keeps (s t : State) : Prop where
  store : StoreLaw s → StoreLaw t
  block : BlockLaw s → BlockLaw t
  reservation : ReservationLaw s → ReservationLaw t

section

variable {s t u : State}

theorem State.Keeps.refl (s : State) : s.Keeps s := ⟨id, id, id⟩

theorem State.Keeps.trans (h : s.Keeps t) (h' : t.Keeps u) : s.Keeps u :=
  ⟨h'.store ∘ h.store, h'.block ∘ h.block, h'.reservation ∘ h.reservation⟩

/-- A change before another: the second is named first. -/
theorem State.Keeps.after (h' : t.Keeps u) (h : s.Keeps t) : s.Keeps u := h.trans h'

/-- The body changes lawfully, and the reserved sum fits the period then in force. -/
theorem State.Keeps.of_sum {reservable : Nat} (h : s.body.Keeps reservable t.body)
    (fits : ReservationLaw s → t.body.reservedSum ≤ t.ce.inForce.reservable) : s.Keeps t where
  store l := (h.store (l.of_body rfl)).of_body rfl
  block l := (h.block (l.of_streams rfl rfl)).of_streams rfl rfl
  reservation l := ⟨fits l, h.caused l.caused⟩

/-- The body changes lawfully, and the period in force stays. -/
theorem State.Keeps.of_body (h : s.body.Keeps s.ce.inForce.reservable t.body) (inForce : t.ce.inForce = s.ce.inForce) :
    s.Keeps t :=
  .of_sum h fun l => inForce ▸ h.reserved l.caused l.fits

theorem State.Keeps.onBody {f : Body → Body} (h : s.body.Keeps s.ce.inForce.reservable (f s.body)) :
    s.Keeps (s.onBody f) := .of_body h rfl

/-- A change of neither the streams, the blocks, the arriving frame, the lane nor the period in force. -/
theorem State.Keeps.aside (same : (t.body.streams, t.body.blocks, t.body.rx, t.body.lt.lane, t.ce.inForce) =
      (s.body.streams, s.body.blocks, s.body.rx, s.body.lt.lane, s.ce.inForce)) : s.Keeps t := by
  simp only [Prod.mk.injEq] at same
  obtain ⟨streams, blocks, rx, lane, inForce⟩ := same
  exact .of_body (.aside (by rw [streams, blocks, rx, lane])) inForce

/-- With every stream CLOSED, every block free and nothing arriving or under way the laws hold (R178). -/
theorem State.Keeps.of_reset (h : t.body = Body.reset) : s.Keeps t := by
  have shut : ∀ i, t.body.stream i = none := fun i => by simp [h, Body.stream, Body.reset]
  have blocks : t.body.blocks = Vector.replicate 96 none := by rw [h]; rfl
  refine ⟨fun _ => ⟨?_, ?_, ?_, ?_⟩, fun _ => ⟨fun i => ?_, ?_⟩, fun _ => ⟨?_, ?_⟩⟩
  · exact fun i st opened => absurd (shut i ▸ opened) nofun
  · exact fun i st opened => absurd (shut i ▸ opened) nofun
  · rw [h]
    exact nofun
  · rw [h]
    exact fun _ _ _ => nofun
  · rw [blocks, shut]
    simp [ownedBy]
  · rw [blocks, owners_nodup_iff]
    intro k l w taken
    simp at taken
  · have none_reserved : ∀ i, t.body.reservedBy i = 0 := fun i => by rw [Body.reservedBy, shut]
    rw [Body.reservedSum_eq, List.map_congr_left fun i _ => none_reserved i]
    simp
  · exact fun i st opened => absurd (shut i ▸ opened) nofun

end

/-! ### Faults, the settling and the end of a stop -/

theorem State.keeps_enterFault (code : FaultCode) (s : State) : s.Keeps (s.enterFault code) :=
  .of_body (.offLane rfl fun _ _ _ => nofun) rfl

theorem State.keeps_stopEnds (s : State) : s.Keeps s.stopEnds := .of_body (.offLane rfl fun _ _ _ => nofun) rfl

theorem State.keeps_settle (s : State) : s.Keeps s.settle := by
  have settled : s.Keeps (s.onBody (Body.settle s.env)) := .onBody (Body.keeps_settle _ _)
  rcases s.settle_cases with ⟨-, -, h⟩ | ⟨-, h⟩ | ⟨-, h⟩ <;> rw [h]
  · exact .refl s
  · exact settled
  · exact settled.trans (State.keeps_stopEnds _)

/-- An event keeps what its own effect keeps. -/
theorem State.keeps_event {effect : State → State} (keeps : ∀ s : State, s.Keeps (effect s)) (s : State) :
    s.Keeps (s.event effect) := by
  unfold State.event
  split
  · exact .refl s
  · exact (keeps s).trans (State.keeps_settle _)

/-! ### The link -/

theorem State.keeps_leaveUpWith {streams : Body → Body} (keeps : ∀ reservable b, Body.Keeps reservable b (streams b))
    (cause : DownCause) (s : State) : s.Keeps (s.leaveUpWith streams cause) := by
  refine .of_body (Body.Keeps.after (b' := streams (s.body.raise none (.linkState .down (some cause)))) ?_ ?_) rfl
  · exact .offLane rfl fun _ _ _ => nofun
  · exact (keeps _ _).after (.aside rfl)

theorem State.keeps_leaveUp (cause : DownCause) (s : State) : s.Keeps (s.leaveUp cause) :=
  s.keeps_leaveUpWith (fun _ b => b.keeps_loseLinkAfter fun b _ => .refl _ b) cause

theorem State.keeps_bringUpFails (cause : DownCause) (status : Status) (s : State) :
    s.Keeps (s.bringUpFails cause status) :=
  .of_body ((Body.keeps_completePending _ status _).after (.aside rfl)) rfl

theorem State.keeps_takeDown (cause : DownCause) (status : Status) (s : State) : s.Keeps (s.takeDown cause status) := by
  unfold State.takeDown
  split
  · exact .refl s
  · exact s.keeps_bringUpFails cause status
  · exact s.keeps_bringUpFails cause status
  · exact s.keeps_leaveUp cause

theorem State.keeps_takeDownHere (status : Status) (s : State) : s.Keeps (s.takeDownHere status) := by
  unfold State.takeDownHere
  dsimp only
  split
  · exact (s.keeps_takeDown .requested status).trans (.aside rfl)
  · exact s.keeps_takeDown .requested status

theorem State.keeps_startCycle (n : CycleNum) (s : State) : s.Keeps (s.startCycle n) := by
  unfold State.startCycle
  dsimp only
  split
  · refine (State.keeps_leaveUpWith (fun _ b => b.keeps_loseLinkAfter fun b i => b.keeps_advanceAnswer true i) _ _).after ?_
    exact .aside rfl
  · refine .of_body ((Body.keeps_advanceNotices _).after ?_) rfl
    exact (Body.Keeps.foldl (fun b i => b.keeps_advanceAnswer true i) _ _).after (.aside rfl)

/-- Where the link reaches UP the period in force may change: the examination leaves no more reserved than fits it
(R16, R107, R108). -/
theorem State.keeps_reachUp (n : CycleNum) (s : State) : s.Keeps (s.reachUp n) := by
  rw [State.reachUp_eq]
  refine (State.keeps_startCycle n _).after (.of_sum (reservable := s.ce.inForce.reservable) ?_ fun _ => ?_)
  · exact (Body.keeps_completePending _ .ok _).after ((Body.keeps_examine _ _ _).after (Body.keeps_calledUp _))
  · have same : ∀ pending (b : Body), (b.completePending pending .ok).reservedSum = b.reservedSum := by
      rintro (_ | _) _ <;> rfl
    exact (same _ _).trans_le Body.examine_reservedSum_le

theorem State.keeps_markerArrives (m : CycleNum) (s : State) : s.Keeps (s.markerArrives m) := by
  unfold State.markerArrives
  split
  · split
    · exact .refl s
    · exact .refl s
    · split
      · exact (State.keeps_reachUp m _).after (.aside rfl)
      · exact .refl s
    · split
      · exact .refl s
      · unfold State.markerInUp
        dsimp only
        split
        · exact (State.keeps_startCycle m _).after (.aside rfl)
        · split
          · exact .aside rfl
          · exact (State.keeps_startCycle m _).after (.aside rfl)
  · exact .refl s

theorem State.keeps_echoArrives (m : CycleNum) (s : State) : s.Keeps (s.echoArrives m) := by
  unfold State.echoArrives
  split
  · exact .aside rfl
  · exact .refl s

theorem State.keeps_periodExpires (s : State) : s.Keeps s.periodExpires := by
  unfold State.periodExpires
  split
  · split
    · dsimp only
      generalize (if s.ce.echoSeen = some true then 0 else s.ce.echoMiss + 1) = miss
      split
      · exact (State.keeps_leaveUp .peerSilent _).after (.aside rfl)
      · exact (State.keeps_startCycle _ _).after (.aside rfl)
    · exact .refl s
  · exact .refl s

theorem State.keeps_deadlinePasses (s : State) : s.Keeps s.deadlinePasses := by
  unfold State.deadlinePasses
  split
  · split
    · split
      · exact (State.keeps_leaveUp .syncLost _).after (.aside rfl)
      · exact (State.keeps_startCycle _ _).after (.aside rfl)
    · exact .refl s
  · exact .refl s

/-! ### Bring-up -/

theorem State.keeps_helloDue (s : State) : s.Keeps s.helloDue := by
  unfold State.helloDue
  split
  · exact .refl s
  · exact .aside rfl

theorem State.keeps_callPeer (id : Nat) (role : Role) (period : Period) (timeout : Nat) (s : State) :
    s.Keeps (s.callPeer id role period timeout) := by
  unfold State.callPeer
  exact State.Keeps.after (.onBody (Body.keeps_raise _ _ _)) ((State.keeps_helloDue _).after (.aside rfl))

theorem State.keeps_helloExpires (s : State) : s.Keeps s.helloExpires := by
  unfold State.helloExpires
  split
  · split
    · exact (State.keeps_helloDue _).after (.aside rfl)
    · exact .refl s
  · exact .refl s

theorem State.keeps_bringUpExpires (s : State) : s.Keeps s.bringUpExpires := by
  unfold State.bringUpExpires
  split
  · split
    · exact s.keeps_bringUpFails .timeout .timeout
    · exact .refl s
  · exact .refl s

theorem State.keeps_sendChunk (k sends : Nat) (s : State) : s.Keeps (s.sendChunk k sends) := .aside rfl

theorem State.keeps_beginExchange (h : PeerHello) (s : State) : s.Keeps (s.beginExchange h) := by
  unfold State.beginExchange
  dsimp only
  split <;> exact .aside rfl

theorem State.keeps_helloChecked (h : PeerHello) (s : State) : s.Keeps (s.helloChecked h) := by
  unfold State.helloChecked
  repeat' split
  · exact s.keeps_bringUpFails _ _
  · exact s.keeps_bringUpFails _ _
  · exact s.keeps_bringUpFails _ _
  · exact s.keeps_beginExchange h

theorem State.keeps_helloArrives (h : PeerHello) (s : State) : s.Keeps (s.helloArrives h) := by
  unfold State.helloArrives
  split
  · exact .refl s
  · exact s.keeps_helloChecked h
  · split
    · exact .refl s
    · exact s.keeps_helloChecked h
  · exact s.keeps_leaveUp .peerDown

theorem State.keeps_exchangeDone (s : State) : s.Keeps s.exchangeDone := by
  unfold State.exchangeDone
  split
  · exact s.keeps_reachUp 0
  · exact .refl s

theorem State.keeps_ackArrives (number : Byte) (s : State) : s.Keeps (s.ackArrives number) := by
  have stopped : s.Keeps s.stopHello := .aside rfl
  unfold State.ackArrives
  split
  · split
    · split
      · refine stopped.trans ?_
        unfold State.chunkAcked
        split
        · exact State.keeps_sendChunk _ _ _
        · exact (State.keeps_exchangeDone _).after (.aside rfl)
      · exact stopped
    · exact stopped
  · exact .refl s

theorem State.keeps_answerExpires (s : State) : s.Keeps s.answerExpires := by
  unfold State.answerExpires
  split
  · split
    · split
      · split
        · exact State.keeps_sendChunk _ _ _
        · exact s.keeps_bringUpFails _ _
      · exact .refl s
    · exact .refl s
  · exact .refl s

theorem State.keeps_chunkMeasured (h : PeerHello) (c : Incoming) (number : Byte) (bytes : List Byte) (s : State) :
    s.Keeps (s.chunkMeasured h c number bytes) := by
  unfold State.chunkMeasured
  dsimp only
  split
  · exact .aside rfl
  split
  · exact s.keeps_bringUpFails _ _
  split
  · unfold State.lastChunk
    split
    · exact (State.keeps_exchangeDone _).after (.aside rfl)
    · exact s.keeps_bringUpFails _ _
  · exact .aside rfl

theorem State.keeps_chunkArrives (number : Byte) (bytes : List Byte) (s : State) :
    s.Keeps (s.chunkArrives number bytes) := by
  have stopped : s.Keeps s.stopHello := .aside rfl
  unfold State.chunkArrives
  split
  · exact .refl s
  · exact .refl s
  · split
    · exact stopped.trans (State.keeps_chunkMeasured _ _ _ _ _)
    · exact stopped
  · exact .aside rfl

theorem State.keeps_farewellArrives (s : State) : s.Keeps s.farewellArrives := by
  unfold State.farewellArrives
  split
  · exact .refl s
  · exact .refl s
  · exact s.keeps_bringUpFails _ _
  · exact s.keeps_leaveUp .peerDown

theorem State.keeps_signalLost (s : State) : s.Keeps s.signalLost := by
  unfold State.signalLost
  dsimp only
  split
  · exact (State.keeps_takeDown _ _ _).after (.aside rfl)
  · exact .aside rfl

/-! ### START, STOP and the host's writes -/

theorem State.keeps_applyStop (s : State) : s.Keeps s.applyStop := by
  unfold State.applyStop
  have dropped : ∀ reservable (b : Body),
      b.Keeps reservable (b.completeIf (fun e => e.work == Work.none) .aborted 0).dropRequests := fun _ _ => .aside rfl
  refine State.Keeps.after (.onBody (dropped _ _)) ((State.keeps_takeDownHere _ _).after ?_)
  refine .of_body ?_ rfl
  dsimp only
  exact s.body.keeps_abortAll

theorem State.keeps_stopCommand (s : State) : s.Keeps s.stopCommand := by
  unfold State.stopCommand
  split
  · exact .refl s
  · exact .aside rfl
  · exact s.keeps_applyStop
  · exact .refl s
  · exact .refl s

theorem State.keeps_startCommand (s : State) : s.Keeps s.startCommand := by
  unfold State.startCommand
  split
  · split
    · exact .aside rfl
    · exact s.keeps_enterFault .badControlBlock
  all_goals exact .refl s

theorem State.keeps_controlBlockRead (result : Option (BitVec 1024)) (s : State) :
    s.Keeps (s.controlBlockRead result) := by
  unfold State.controlBlockRead
  split
  · split
    · dsimp only
      split
      · split
        · exact (State.keeps_applyStop _).after (.aside rfl)
        · exact .aside rfl
      · exact s.keeps_enterFault .badControlBlock
    · exact s.keeps_enterFault .badControlBlock
  · exact .refl s

theorem State.keeps_notifyWrite (value : Word) (s : State) : s.Keeps (s.notifyWrite value) := by
  unfold State.notifyWrite
  split
  · exact .onBody (Body.keeps_notify _ _ _ _ _)
  · exact .refl s

theorem State.keeps_resetBlocks (s : State) : s.Keeps s.resetBlocks := .of_reset rfl

theorem State.keeps_registerWrite (offset value : Word) (s : State) : s.Keeps (s.registerWrite offset value) := by
  unfold State.registerWrite
  split
  · exact .aside rfl
  split
  · exact .aside rfl
  split
  · unfold State.functionWrite
    repeat' split
    · exact State.keeps_event State.keeps_startCommand s
    · exact State.keeps_event State.keeps_stopCommand s
    · exact s.keeps_resetBlocks
    · exact .refl s
  split
  · exact State.keeps_event (State.keeps_notifyWrite value) s
  · exact .refl s

/-! ### Requests -/

theorem State.keeps_finish (id : Nat) (status : Status) (result : Nat) (s : State) :
    s.Keeps (s.finish id status result) := .aside rfl

theorem State.keeps_openRequest (id : Nat) (i : StreamId) (p : OpenParams) (s : State) :
    s.Keeps (s.openRequest id i p) := by
  unfold State.openRequest
  split
  · exact s.keeps_finish _ _ _
  · next accepted =>
    refine State.Keeps.trans (.onBody ?_) (State.keeps_finish _ _ _ _)
    unfold State.openRefusal at accepted
    dsimp only at accepted
    split at accepted <;> [cases accepted; rename_i shut]
    split at accepted <;> [cases accepted; rename_i inRange]
    split at accepted <;> [cases accepted; skip]
    split at accepted <;> [cases accepted; skip]
    split at accepted <;> [cases accepted; rename_i fits]
    split at accepted <;> [cases accepted; rename_i room]
    refine Body.keeps_openAt (by simpa using shut) (by simpa using inRange) (fun reserves => ?_) (not_lt.mp room)
    simpa [reserves, State.reservationFits] using fits

theorem State.keeps_resumeRequest (id : Nat) (i : StreamId) (s : State) : s.Keeps (s.resumeRequest id i) := by
  unfold State.resumeRequest
  split
  · exact s.keeps_finish _ _ _
  · next accepted =>
    refine State.Keeps.trans (.onBody ?_) (State.keeps_finish _ _ _ _)
    unfold State.resumeRefusal at accepted
    split at accepted
    · next st h =>
      rw [Body.modify_some h]
      split at accepted <;> [cases accepted; rename_i halted]
      split at accepted <;> [cases accepted; skip]
      split at accepted <;> [cases accepted; skip]
      split at accepted <;> [cases accepted; rename_i fits]
      refine Body.keeps_resumed h (not_not.mp halted) fun reserves => ?_
      simpa [reserves, State.reservationFits] using fits
    · cases accepted

theorem State.keeps_watchRequest (id : Nat) (i : StreamId) (mode dir measure : Byte) (threshold : Word) (s : State) :
    s.Keeps (s.watchRequest id i mode dir measure threshold) := by
  have watched : ∀ {st : Stream} w, s.body.stream i = some st →
      s.body.Keeps s.ce.inForce.reservable (s.body.put i st { st with watch := w }) :=
    fun w h => .put h (.aside rfl rfl)
  unfold State.watchRequest
  split
  · next st h =>
    split
    · exact State.Keeps.trans (.onBody (watched none h)) (State.keeps_finish _ _ _ _)
    split
    · split
      · next w _ =>
        refine State.Keeps.trans (.onBody ?_) (State.keeps_finish _ _ _ _)
        dsimp only
        split
        · exact (watched (some w) h).trans (.aside rfl)
        · exact watched (some w) h
      · exact s.keeps_finish _ _ _
    · exact s.keeps_finish _ _ _
  · exact s.keeps_finish _ _ _

theorem State.keeps_carryOutStream (id : Nat) (i : StreamId) (r : AdminRecord) (s : State) :
    s.Keeps (s.carryOutStream id i r) := by
  have not_aborting : ∀ {st : Stream}, st.state = .active ∨ st.state = .halted → st.state ≠ .aborting := by
    rintro st (h | h) <;> rw [h] <;> nofun
  unfold State.carryOutStream
  repeat' split
  · exact s.keeps_openRequest id i _
  · unfold State.closeRequest
    split
    · next h =>
      split
      · next state => exact .onBody (.put h (Stream.keeps_beginClose (not_aborting state)))
      · exact s.keeps_finish _ _ _
    · exact s.keeps_finish _ _ _
  · unfold State.abortRequest
    split
    · next h => exact .onBody ((Body.Keeps.put h (Stream.keeps_beginAbort _)).trans (.aside rfl))
    · exact s.keeps_finish _ _ _
  · unfold State.flushRequest
    split
    · next h =>
      split
      · next state => exact .onBody (.put h (Stream.keeps_beginFlush (not_aborting state)))
      · exact s.keeps_finish _ _ _
    · exact s.keeps_finish _ _ _
  · exact s.keeps_resumeRequest id i
  · exact s.keeps_watchRequest id i _ _ _ _
  · unfold State.queryStreamRequest
    split <;> exact .aside rfl

theorem State.keeps_carryOutLink (id : Nat) (r : AdminRecord) (s : State) : s.Keeps (s.carryOutLink id r) := by
  unfold State.carryOutLink
  repeat' split
  · unfold State.linkUpRequest
    split
    · split
      · exact s.keeps_callPeer _ _ _ _
      · exact s.keeps_finish _ _ _
    · exact s.keeps_finish _ _ _
  · unfold State.linkDownRequest
    dsimp only
    split
    · exact s.keeps_takeDownHere .overtaken
    · exact (s.keeps_takeDownHere .overtaken).trans (State.keeps_finish _ _ _ _)
  · unfold State.loadProfileRequest
    repeat' split
    all_goals exact .aside rfl
  · unfold State.readPeerRequest
    repeat' split
    all_goals exact .aside rfl
  · unfold State.queryLinkRequest
    split <;> exact .aside rfl

theorem State.keeps_takeRequest (position : Nat) (r : AdminRecord) (s : State) : s.Keeps (s.takeRequest position r) := by
  unfold State.takeRequest
  dsimp only
  split
  · exact .aside rfl
  · split
    · split
      · exact (State.keeps_carryOutStream _ _ r _).after (.aside rfl)
      · exact .aside rfl
    · exact (State.keeps_carryOutLink _ r _).after (.aside rfl)

theorem State.keeps_handOnRequests (n : Nat) (s : State) : s.Keeps (s.handOnRequests n) := by
  induction n generalizing s with
  | zero => exact .refl s
  | succ n ih =>
    rw [State.handOnRequests]
    split
    · split
      · refine (ih _).after (State.Keeps.trans ?_ (.onBody (Body.keeps_runStreams _ _)))
        exact (State.keeps_takeRequest _ _ _).after (.aside rfl)
      · exact .refl s
    · exact .refl s

theorem State.keeps_adminFetchEnds (slot : Nat) (result : Option (BitVec 256)) (s : State) :
    s.Keeps (s.adminFetchEnds slot result) := by
  have handed : ∀ ring n, s.Keeps (State.handOnRequests n (s.onBody fun b => { b with admin := ring })) :=
    fun _ n => (State.keeps_handOnRequests n _).after (.aside rfl)
  unfold State.adminFetchEnds
  split
  · split
    · cases fn : s.fn <;> cases result
      case running.some bits => exact handed _ _
      case running.none => exact s.keeps_enterFault .adminFetch
      all_goals exact .aside rfl
    · exact .refl s
  · exact .refl s

theorem State.keeps_requestArrives (r : AdminRecord) (s : State) : s.Keeps (s.requestArrives r) := by
  unfold State.requestArrives
  split
  · split
    · exact s.keeps_adminFetchEnds _ _
    · exact .refl s
  · exact .refl s

/-! ### The ends of memory transfers -/

theorem State.keeps_ringWriteEnds (p : RingWrite → Bool) (ok : Bool) (s : State) : s.Keeps (s.ringWriteEnds p ok) := by
  unfold State.ringWriteEnds
  split
  · split
    · exact .onBody ((Body.keeps_ringWriteAccepted _ _).after (.aside rfl))
    · exact s.keeps_enterFault .postWrite
  · exact .refl s

theorem State.keeps_profileReadEnds (id : Nat) (result : Option (List Byte)) (s : State) :
    s.Keeps (s.profileReadEnds id result) := by
  unfold State.profileReadEnds
  split
  · split
    · exact .aside rfl
    · split
      · exact .aside rfl
      · dsimp only
        split <;> exact .aside rfl
  · exact .refl s

theorem State.keeps_writesEnd (id : Nat) (ok : Bool) (result : Nat) (s : State) : s.Keeps (s.writesEnd id ok result) := by
  unfold State.writesEnd
  repeat' split
  all_goals exact .aside rfl

/-! ### Frames that arrive -/

theorem State.keeps_hear {effect : State → State} (keeps : ∀ s : State, s.Keeps (effect s)) (s : State) :
    s.Keeps (s.hear effect) := by
  unfold State.hear
  split
  · exact keeps s
  · exact .refl s

theorem State.keeps_hearUp {effect : Body → Body} (keeps : ∀ reservable b, Body.Keeps reservable b (effect b)) (s : State) :
    s.Keeps (s.hearUp effect) := by
  refine State.keeps_hear (fun s => ?_) s
  split
  · exact .onBody (keeps _ _)
  · exact .refl s

theorem fit_length (n : Nat) (bs : List Byte) : (fit n bs).length = n := by
  simp only [fit, List.length_append, List.length_take, List.length_replicate]
  omega

theorem State.keeps_dataEnds (cls : StreamClass) (rest : List Byte) {decision : Reception → List Byte → Body → Body}
    (s : State) (keeps : ∀ reservable r data b, b.rx = some r → data.length = r.header.length →
      Body.Keeps reservable b (decision r data b)) : s.Keeps (s.dataEnds cls rest decision) := by
  unfold State.dataEnds
  split
  · next r rx =>
    split
    · split
      · exact .onBody (keeps _ r _ _ rx (fit_length _ _))
      · exact .onBody (Body.keeps_undoClaim _)
    · exact .refl s
  · exact .refl s

/-! ### Every command -/

/-- Every command keeps the laws of the store, the block map and the reservations. -/
theorem exec_keeps {c : Instr} {s t : State} (h : exec c s = .next t) : s.Keeps t := by
  have event : ∀ {effect : State → State}, (∀ s : State, s.Keeps (effect s)) →
      (.next (s.event effect) : Outcome State Fault Refusal) = .next t → s.Keeps t :=
    fun keeps same => Outcome.next.inj same ▸ State.keeps_event keeps s
  have onBody : ∀ {effect : Body → Body}, (∀ reservable b, Body.Keeps reservable b (effect b)) →
      (.next (s.event (State.onBody effect)) : Outcome State Fault Refusal) = .next t → s.Keeps t :=
    fun keeps => event fun _ => .onBody (keeps _ _)
  have request : ∀ {r : AdminRecord},
      (.next (s.event (State.requestArrives r)) : Outcome State Fault Refusal) = .next t → s.Keeps t :=
    event (State.keeps_requestArrives _)
  have hear : ∀ {effect : State → State}, (∀ s : State, s.Keeps (effect s)) →
      (.next (s.event (State.hear effect)) : Outcome State Fault Refusal) = .next t → s.Keeps t :=
    fun keeps => event (State.keeps_hear keeps)
  have hearUp : ∀ {effect : Body → Body}, (∀ reservable b, Body.Keeps reservable b (effect b)) →
      (.next (s.event (State.hearUp effect)) : Outcome State Fault Refusal) = .next t → s.Keeps t :=
    fun keeps => event (State.keeps_hearUp keeps)
  cases c with
  | powerOnReset => exact Outcome.next.inj h ▸ .of_reset rfl
  | reset => exact Outcome.next.inj h ▸ s.keeps_resetBlocks
  | start => exact event State.keeps_startCommand h
  | stop => exact event State.keeps_stopCommand h
  | notify value => exact event (State.keeps_notifyWrite value) h
  | registerWrite offset value => exact Outcome.next.inj h ▸ s.keeps_registerWrite offset value
  | controlBlockReadEnd result => exact event (State.keeps_controlBlockRead result) h
  | adminFetchReturn slot result => exact event (State.keeps_adminFetchEnds slot result) h
  | workRecordFetchReturn i slot result => exact onBody (fun _ b => b.keeps_recordFetchEnds i slot result) h
  | sendBufferReadReturn i slot result => exact onBody (fun _ b => b.keeps_sendReadEnds i slot result) h
  | receiveBufferWriteEnd i ok => exact onBody (fun _ b => b.keeps_receiveWriteEnds i ok) h
  | completionWriteEnd ok => exact event (State.keeps_ringWriteEnds _ ok) h
  | eventWriteEnd ok => exact event (State.keeps_ringWriteEnds _ ok) h
  | interruptMessageWriteEnd ok => exact event (State.keeps_ringWriteEnds _ ok) h
  | loadProfileReadEnd entry result => exact event (State.keeps_profileReadEnds entry result) h
  | readPeerProfileWritesEnd entry ok =>
    refine event (fun s => ?_) h
    split
    · exact s.keeps_writesEnd entry ok _
    · exact .refl s
  | queryStreamWritesEnd entry ok =>
    refine event (fun s => ?_) h
    split
    · exact s.keeps_writesEnd entry ok _
    · exact .refl s
  | queryLinkWritesEnd entry ok =>
    refine event (fun s => ?_) h
    split
    · exact s.keeps_writesEnd entry ok _
    · exact .refl s
  | openStream tag stream params => exact request h
  | closeStream tag stream => exact request h
  | abortStream tag stream => exact request h
  | flushStream tag stream => exact request h
  | resumeStream tag stream => exact request h
  | setWatch tag stream mode dir measure threshold => exact request h
  | queryStream tag stream addr => exact request h
  | linkUp tag role period timeout => exact request h
  | linkDown tag => exact request h
  | loadProfile tag addr length => exact request h
  | readPeerProfile tag addr length => exact request h
  | queryLink tag addr => exact request h
  | dataHeaderArrival header =>
    refine hear (fun s => ?_) h
    split
    · exact .onBody (Body.keeps_headerArrives _ _ _)
    · exact .refl s
  | dataArrivalStep bytes => exact hear (fun _ => .onBody (Body.keeps_payloadArrives _ _ _)) h
  | dataBestEffortEnd rest =>
    exact event (fun s => s.keeps_dataEnds _ rest fun _ _ _ _ rx length => Body.keeps_bestEffortEnds rx _ length) h
  | dataScheduledEnd rest =>
    exact event (fun s => s.keeps_dataEnds _ rest fun _ _ _ _ rx length => Body.keeps_scheduledEnds rx _ length) h
  | accept i bit => exact hearUp (fun _ _ => .modify fun st _ => st.keeps_accepted bit _) h
  | defer i bit => exact hearUp (fun _ _ => .modify fun st _ => st.keeps_deferred bit) h
  | gone i => exact hearUp (fun _ b => b.keeps_goneActs i) h
  | notice i kind => exact hearUp (fun _ b => (Body.keeps_noticeActs i kind _).after (b.keeps_addDue _)) h
  | noticeAck i kind => exact hearUp (fun _ b => b.keeps_noticeAcked i kind) h
  | cycleStart number => exact hear (State.keeps_markerArrives number) h
  | cycleEcho number => exact hear (State.keeps_echoArrives number) h
  | hello role period length check => exact hear (State.keeps_helloArrives _) h
  | profileChunk number bytes => exact hear (State.keeps_chunkArrives number bytes) h
  | profileAck number => exact hear (State.keeps_ackArrives number) h
  | farewell => exact hear State.keeps_farewellArrives h
  | invalidFrame => exact onBody (fun _ b => b.keeps_undoClaim) h
  | transmitFrameEnd => exact onBody (fun _ b => b.keeps_frameEnds _) h
  | leaderPeriodExpiry => exact event State.keeps_periodExpires h
  | followerDeadline => exact event State.keeps_deadlinePasses h
  | helloTimerExpiry => exact event State.keeps_helloExpires h
  | answerTimerExpiry => exact event State.keeps_answerExpires h
  | bringUpTimerExpiry => exact event State.keeps_bringUpExpires h
  | lossOfSignal =>
    exact Outcome.next.inj h ▸ (State.keeps_event State.keeps_signalLost _).after (.aside rfl)
  | signalPresent =>
    exact Outcome.next.inj h ▸ (State.keeps_event (effect := State.signalRises) (fun _ => .aside rfl) _).after (.aside rfl)

/-- Every step keeps the laws of the store, the block map and the reservations. -/
theorem step_keeps {s t : State} (h : step s = .next t) : s.Keeps t := by
  unfold step at h
  split at h
  · exact (exec_keeps h).after (.aside rfl)
  · cases h
    unfold State.tick
    split
    · exact .refl s
    · exact .aside rfl

/-- Settles O59: every command keeps the law of the store. -/
theorem storeLawIsKept : Obligations.StoreLawIsKept := fun _ _ lawful h => (step_keeps h).store lawful

/-- Settles O60: every command keeps the law of the block map and that of the reservations. -/
theorem blockAndReservationLawsAreKept : Obligations.BlockAndReservationLawsAreKept :=
  ⟨fun _ _ lawful h => (step_keeps h).block lawful, fun _ _ lawful h => (step_keeps h).reservation lawful⟩

end Sys2Proof.Machine
end

section
/-! SUPPORT. How a DATA frame claims a buffer, counts in it and lets it go (R38, R39, R110, R111, R146). -/

namespace Sys2Proof.Machine

open Sys2Proof Host

/-! ### The three pieces of a frame, as events -/

section

variable {s : State}

theorem exec_dataHeaderArrival (w : BitVec 64) (running : s.fn ≠ .faulted) (heard : s.lsig = true)
    (data : byteAt w 0 = 1) :
    exec (.dataHeaderArrival w) s = .next (s.onBody (Body.headerArrives s.isUp (DataHeader.read w))).settle := by
  refine congrArg Outcome.next ?_
  rw [State.event_eq running, State.hear, if_pos heard, if_pos data]

theorem exec_dataArrivalStep (bytes : BitVec 512) (running : s.fn ≠ .faulted) (heard : s.lsig = true) :
    exec (.dataArrivalStep bytes) s = .next (s.onBody (Body.payloadArrives s.isUp (bytesOf 64 bytes))).settle := by
  refine congrArg Outcome.next ?_
  rw [State.event_eq running, State.hear, if_pos heard]

/-- Without the signal no piece of a frame is received (R146). -/
theorem State.event_hear_silent (effect : State → State) (running : s.fn ≠ .faulted) (silent : s.lsig = false) :
    s.event (State.hear effect) = s.settle := by
  rw [State.event_eq running, State.hear, silent, if_neg Bool.false_ne_true]

/-- The end of a frame of the class that is arriving is not decided outside UP or without the signal (R111, R146). -/
theorem State.dataEnds_undecided {cls : StreamClass} {rest : List Byte} {decision : Reception → List Byte → Body → Body}
    {r : Reception} (rx : s.body.rx = some r) (same : r.header.cls = cls)
    (unheard : s.lsig = false ∨ s.bp.link ≠ .up) : s.dataEnds cls rest decision = s.onBody Body.undoClaim := by
  have undecided : ¬(s.lsig = true ∧ s.isUp = true ∧ r.header.length ≤ 1024) := by
    rintro ⟨heard, up, -⟩
    rcases unheard with silent | down
    · simp [silent] at heard
    · exact down ((State.isUp_iff s).mp up)
  simp only [State.dataEnds, rx, if_pos same, if_neg undecided]

/-! ### The claim of the arriving frame -/

variable {b : Body} {r : Reception}

theorem Body.undoClaim_of_none (rx : b.rx = none) : b.undoClaim = b := by
  simp only [Body.undoClaim, rx]

theorem Body.undoClaim_unclaimed (rx : b.rx = some r) (claim : r.claim = none) :
    b.undoClaim = { b with rx := none } := by
  simp only [Body.undoClaim, rx, claim]

theorem Body.undoClaim_claimed {k : Nat} {st : Stream} (rx : b.rx = some r) (claim : r.claim = some k)
    (h : b.stream r.header.stream = some st) :
    b.undoClaim = { b.put r.header.stream st (st.freeBuffer k) with rx := none } := by
  simp only [Body.undoClaim, rx, claim, Body.modify_some h]

/-- Of the header's stream a FREE buffer is claimed with the link UP, when it takes the frame (R38). -/
theorem Body.headerArrives_claims {d : DataHeader} {st : Stream} {k : Nat} (rx : b.rx = none)
    (h : b.stream d.stream = some st) (takes : st.dir = .inbound ∧ st.cls = d.cls ∧ d.length ≤ st.maxLen)
    (free : st.freeIndex = some k) : b.headerArrives true d =
      { b.put d.stream st (st.setBuffer k (.receiving [])) with
        rx := some { header := d, arrived := [], claim := some k } } := by
  obtain ⟨dir, cls, fits⟩ := takes
  simp [Body.headerArrives, Body.undoClaim_of_none rx, h, Stream.receivesClass, dir, cls, fits, free]

/-- A header claims nothing outside UP, or when its stream is CLOSED, does not take the frame or has no FREE buffer
(R38). -/
theorem Body.headerArrives_bare {up : Bool} {d : DataHeader} (rx : b.rx = none)
    (refuses : up = true → ∀ st, b.stream d.stream = some st →
      st.dir = .outbound ∨ st.cls ≠ d.cls ∨ st.maxLen < d.length ∨ st.freeIndex = none) :
    b.headerArrives up d = { b with rx := some { header := d, arrived := [], claim := none } } := by
  simp only [Body.headerArrives, Body.undoClaim_of_none rx]
  split
  · next st h =>
    split
    · next takes =>
      obtain ⟨isUp, receives, fits⟩ := takes
      obtain ⟨dir, cls⟩ : st.dir = .inbound ∧ st.cls = d.cls := by simpa [Stream.receivesClass] using receives
      have full : st.freeIndex = none := by
        rcases refuses isUp st h with out | other | short | full
        · simp [dir] at out
        · exact absurd cls other
        · omega
        · exact full
      simp only [full]
    · rfl
  · rfl

theorem Body.payloadArrives_down (rx : b.rx = some r) (bytes : List Byte) : b.payloadArrives false bytes =
    { b with rx := some { r with arrived := (r.arrived ++ bytes).take r.header.length } } := by
  simp only [Body.payloadArrives, rx]
  split <;> simp

theorem Body.payloadArrives_claimed {k : Nat} {st : Stream} (rx : b.rx = some r) (claim : r.claim = some k)
    (h : b.stream r.header.stream = some st) (bytes : List Byte) : b.payloadArrives true bytes =
      let now := (r.arrived ++ bytes).take r.header.length
      { b.put r.header.stream st (st.setBuffer k (.receiving now)) with rx := some { r with arrived := now } } := by
  simp [Body.payloadArrives, rx, claim, Body.modify_some h]

end

/-- Settles O34: a header claims or does not, a step counts or does not, and an end that is not decided undoes the
claim. -/
theorem dataFramesClaimBuffers : Obligations.DataFramesClaimBuffers := by
  refine ⟨fun s w bytes running => ⟨fun silent => ⟨?_, ?_⟩, fun heard down => ⟨fun data rx => ?_, fun r rx => ?_⟩,
    fun unheard r rest c rx hc => ?_⟩, fun s w bytes receives => ?_⟩
  · exact congrArg Outcome.next (State.event_hear_silent _ running silent)
  · exact congrArg Outcome.next (State.event_hear_silent _ running silent)
  · rw [exec_dataHeaderArrival w running heard data, (State.isUp_false_iff s).mpr down, State.onBody,
      Body.headerArrives_bare rx fun h => absurd h Bool.false_ne_true]
    rfl
  · rw [exec_dataArrivalStep bytes running heard, (State.isUp_false_iff s).mpr down, State.onBody,
      Body.payloadArrives_down rx]
    rfl
  · have undone : exec c s = .next (s.onBody Body.undoClaim).settle := by
      subst hc
      cases cls : r.header.cls
      all_goals
        refine congrArg Outcome.next ?_
        rw [State.event_eq running, State.dataEnds_undecided rx cls unheard]
    refine ⟨fun claim => ?_, fun k st claim opened => ?_⟩
    · rw [undone, State.onBody, Body.undoClaim_unclaimed rx claim]
      rfl
    · rw [undone, State.onBody, Body.undoClaim_claimed rx claim opened]
      rfl
  · obtain ⟨fn, heard, up⟩ := receives
    have running : s.fn ≠ .faulted := by rw [fn]; nofun
    have isUp : s.isUp = true := (State.isUp_iff s).mpr up
    refine ⟨fun data rx => ⟨fun st k opened dir cls fits free => ?_, fun refuses => ?_⟩, fun r k st rx claim opened =>
      ⟨?_, ?_⟩⟩
    · rw [exec_dataHeaderArrival w running heard data, isUp, State.onBody,
        Body.headerArrives_claims rx opened ⟨dir, cls, fits⟩ free]
      rfl
    · rw [exec_dataHeaderArrival w running heard data, isUp, State.onBody,
        Body.headerArrives_bare rx fun _ st opened => refuses st opened]
      rfl
    · rw [exec_dataArrivalStep bytes running heard, isUp, State.onBody, Body.payloadArrives_claimed rx claim opened]
      rfl
    · refine congrArg Outcome.next ?_
      rw [State.event_eq running, State.onBody, Body.undoClaim_claimed rx claim opened]
      rfl

end Sys2Proof.Machine
end

section
/-! SUPPORT. What the Outbound Assembler does on its own (R49 to R59): the entry it works on, its reads, its placements
and commits, and the leaving of finished records. -/

namespace Sys2Proof.Machine

open Sys2Proof

/-! ### Entries of the outstanding list -/

theorem SendEntry.assembled_iff (e : SendEntry) :
    e.assembled = true ↔ e.requested = e.length ∧ (e.eom = true → e.markCarried = true) := by
  cases eom : e.eom <;> simp [SendEntry.assembled, eom]

theorem SendEntry.finished_iff (e : SendEntry) :
    e.finished = true ↔ e.confirmed = e.length ∧ (e.eom = true → e.markConfirmed = true) := by
  cases eom : e.eom <;> simp [SendEntry.finished, eom]

section Positions

variable {done later : List SendEntry} {e : SendEntry}

/-- Ring positions tell the outstanding entries apart. -/
theorem other_positions (distinct : ((done ++ e :: later).map SendEntry.position).Nodup) :
    (∀ x ∈ done, x.position ≠ e.position) ∧ ∀ x ∈ later, x.position ≠ e.position := by
  simp only [List.map_append, List.map_cons, List.nodup_append, List.nodup_cons, List.mem_map, List.mem_cons] at distinct
  obtain ⟨-, ⟨not_later, -⟩, not_done⟩ := distinct
  exact ⟨fun x hx => not_done _ ⟨x, hx, rfl⟩ _ (.inl rfl), fun x hx same => not_later ⟨x, hx, same⟩⟩

theorem map_at_position {n : Nat} (at_e : n = e.position)
    (distinct : ((done ++ e :: later).map SendEntry.position).Nodup) (f : SendEntry → SendEntry) :
    (done ++ e :: later).map (fun x => if x.position = n then f x else x) = done ++ f e :: later := by
  subst at_e
  have keep : ∀ l : List SendEntry, (∀ x ∈ l, x.position ≠ e.position) →
      l.map (fun x => if x.position = e.position then f x else x) = l := fun l others =>
    (List.map_congr_left fun x hx => if_neg (others x hx)).trans (List.map_id l)
  obtain ⟨not_done, not_later⟩ := other_positions distinct
  rw [List.map_append, List.map_cons, if_pos rfl, keep done not_done, keep later not_later]

theorem any_at_position {n : Nat} (at_e : n = e.position)
    (distinct : ((done ++ e :: later).map SendEntry.position).Nodup) (p : SendEntry → Bool) :
    ((done ++ e :: later).any fun x => x.position == n && p x) = p e := by
  subst at_e
  have no_other : ∀ l : List SendEntry, (∀ x ∈ l, x.position ≠ e.position) →
      (l.any fun x => x.position == e.position && p x) = false := fun l others =>
    List.any_eq_false.mpr fun x hx => by simp [others x hx]
  obtain ⟨not_done, not_later⟩ := other_positions distinct
  simp [no_other done not_done, no_other later not_later]

end Positions

section

variable {st : Stream} {done later : List SendEntry} {e : SendEntry}

theorem Stream.modSend_at {n : Nat} (at_e : n = e.position) (sends : st.sends = done ++ e :: later)
    (distinct : (st.sends.map SendEntry.position).Nodup) (f : SendEntry → SendEntry) :
    st.modSend n f = { st with sends := done ++ f e :: later } := by
  rw [sends] at distinct
  rw [Stream.modSend, sends, map_at_position at_e distinct]

/-- The assembly head is the first entry that is not assembled (3.2). -/
theorem Stream.assemblyHead (sends : st.sends = done ++ e :: later) (before : ∀ x ∈ done, x.assembled = true)
    (unassembled : e.assembled = false) : st.sends.find? (fun x => !x.assembled) = some e := by
  have skipped : done.find? (fun x => !x.assembled) = none := by simpa using before
  simp [sends, List.find?_append, skipped, unassembled]

/-! ### Where bytes are filled in -/

theorem Stream.filling?_eq {k : Nat} {data : List Byte} (found : st.buffers.findIdx? Buffer.isFilling = some k)
    (fills : st.buffer k = .filling data) : st.filling? = some (k, data) := by
  have bytes : (st.buffers.getD k .free).data = data := congrArg Buffer.data fills
  rw [Stream.filling?, found]
  exact congrArg (fun d => some (k, d)) bytes

theorem Stream.filling?_eq_none (none_fills : st.buffers.findIdx? Buffer.isFilling = none) : st.filling? = none := by
  rw [Stream.filling?, none_fills]

theorem Stream.filling?_of_empty (empty : ∀ k, st.buffers.findIdx? Buffer.isFilling = some k → st.buffer k = .filling [])
    {k : Nat} {data : List Byte} (h : st.filling? = some (k, data)) : data = [] := by
  cases found : st.buffers.findIdx? Buffer.isFilling with
  | none => simp [Stream.filling?_eq_none found] at h
  | some j =>
    rw [Stream.filling?_eq found (empty j found)] at h
    cases h
    rfl

theorem Stream.fillTarget_eq {k : Nat} {cur : List Byte}
    (target : (st.buffers.findIdx? Buffer.isFilling = some k ∧ st.buffer k = .filling cur) ∨
      (st.buffers.findIdx? Buffer.isFilling = none ∧ st.freeIndex = some k ∧ cur = [])) :
    st.fillTarget = some (k, cur) := by
  rcases target with ⟨found, fills⟩ | ⟨none_fills, free, rfl⟩
  · simp [Stream.fillTarget, Stream.filling?_eq found fills]
  · simp [Stream.fillTarget, Stream.filling?_eq_none none_fills, free]

/-! ### Reads -/

theorem Stream.mayRead_iff (st : Stream) :
    st.mayRead = true ↔ st.state = .active ∨ (st.state = .closing ∧ st.cause = none) := by
  simp [Stream.mayRead]

/-- What the FILLING buffer still takes (R50). -/
def Stream.fillingRoom (st : Stream) : Nat :=
  match st.buffers.findIdx? Buffer.isFilling with
  | some k => st.maxLen - (st.buffer k).count
  | none => 0

theorem Stream.room_eq (st : Stream) : st.room = st.fillingRoom + st.maxLen * st.buffers.countP Buffer.isFree := by
  unfold Stream.room Stream.fillingRoom Stream.filling?
  cases st.buffers.findIdx? Buffer.isFilling <;> rfl

theorem Stream.unplaced_eq (st : Stream) :
    st.unplaced = (st.reads.map fun r => (r.data.map List.length).getD r.length).sum :=
  congrArg List.sum (List.map_congr_left fun r _ => by cases r.data <;> rfl)

/-- The buffers once one is claimed for the reads to come, where none is FILLING (R50). -/
def Stream.claimedBuffers (st : Stream) : List Buffer :=
  match st.buffers.findIdx? Buffer.isFilling, st.freeIndex with
  | none, some k => st.buffers.set k (.filling [])
  | _, _ => st.buffers

theorem Stream.issueRead_eq (sends : st.sends = done ++ e :: later) (distinct : (st.sends.map SendEntry.position).Nodup)
    (n : Nat) : st.issueRead e n = { st with
      sends := done ++ { e with requested := e.requested + n } :: later
      buffers := st.claimedBuffers
      reads := st.reads ++ [
        { position := e.position, addr := e.addr + BitVec.ofNat 64 e.requested, length := n, data := none }] } := by
  have claim : st.issueRead e n = { ({ st with buffers := st.claimedBuffers } : Stream).modSend e.position
      (fun x => { x with requested := x.requested + n }) with
      reads := st.reads ++ [
        { position := e.position, addr := e.addr + BitVec.ofNat 64 e.requested, length := n, data := none }] } := by
    unfold Stream.issueRead Stream.claimedBuffers Stream.filling?
    cases st.buffers.findIdx? Buffer.isFilling <;> cases st.freeIndex <;> rfl
  rw [claim, Stream.modSend_at (st := { st with buffers := st.claimedBuffers }) rfl sends distinct]

/-- What the assembler does for the assembly head (R49, R50, R55). -/
theorem Stream.assembleOne_of_head (sends : st.sends = done ++ e :: later) (before : ∀ x ∈ done, x.assembled = true)
    (unassembled : e.assembled = false) (reads : st.mayRead = true) : st.assembleOne =
      if e.length = 0 then (if st.reads.isEmpty then st.commitEmptyMark e else none)
      else if e.requested < e.length ∧ st.readsInFlight < 4 ∧ 0 < st.readLength e then
        some (st.issueRead e (st.readLength e))
      else none := by
  rw [Stream.assembleOne, if_pos reads, Stream.assemblyHead sends before unassembled]

theorem Stream.assembleOne_of_not_mayRead (h : ¬st.mayRead = true) : st.assembleOne = none := if_neg h

theorem Stream.assembleOne_of_assembled (all : ∀ x ∈ st.sends, x.assembled = true) : st.assembleOne = none := by
  have no_head : st.sends.find? (fun x => !x.assembled) = none := by simpa using all
  rw [Stream.assembleOne, no_head, ite_self]

/-- For a record with bytes left to request the assembler issues one read, or nothing (R49, R50). -/
theorem Stream.assembleOne_read (sends : st.sends = done ++ e :: later)
    (distinct : (st.sends.map SendEntry.position).Nodup) (before : ∀ x ∈ done, x.assembled = true)
    (left : e.requested < e.length) :
    st.assembleOne = if st.mayRead = true ∧ st.readsInFlight < 4 ∧ st.readLength e ≠ 0 then some { st with
        sends := done ++ { e with requested := e.requested + st.readLength e } :: later
        buffers := st.claimedBuffers
        reads := st.reads ++ [
          { position := e.position, addr := e.addr + BitVec.ofNat 64 e.requested, length := st.readLength e,
            data := none }] }
      else none := by
  have unassembled : e.assembled = false := by simp [SendEntry.assembled, Nat.ne_of_lt left]
  by_cases reads : st.mayRead = true
  · rw [Stream.assembleOne_of_head sends before unassembled reads, if_neg (Nat.ne_zero_of_lt left),
      Stream.issueRead_eq sends distinct]
    simp only [left, reads, Nat.pos_iff_ne_zero, true_and]
  · rw [Stream.assembleOne_of_not_mayRead reads, if_neg fun h => reads h.1]

/-- A marked record that is requested whole waits for its last byte to be placed (R51). -/
theorem Stream.assembleOne_waits (sends : st.sends = done ++ e :: later) (before : ∀ x ∈ done, x.assembled = true)
    (some_byte : 1 ≤ e.length) (requested : e.requested = e.length) (eom : e.eom = true)
    (mark : e.markCarried = false) : st.assembleOne = none := by
  have unassembled : e.assembled = false := by simp [SendEntry.assembled, eom, mark]
  by_cases reads : st.mayRead = true
  · rw [Stream.assembleOne_of_head sends before unassembled reads, if_neg (Nat.ne_zero_of_lt some_byte), requested,
      if_neg fun h => Nat.lt_irrefl _ h.1]
  · exact Stream.assembleOne_of_not_mayRead reads

/-- A record of length 0 with the flag is dealt with once every read has been placed (R51, R55). -/
theorem Stream.assembleOne_mark (sends : st.sends = done ++ e :: later) (before : ∀ x ∈ done, x.assembled = true)
    (no_byte : e.length = 0) (eom : e.eom = true) (mark : e.markCarried = false) :
    st.assembleOne = if st.mayRead = true ∧ st.reads = [] then st.commitEmptyMark e else none := by
  have unassembled : e.assembled = false := by simp [SendEntry.assembled, eom, mark]
  by_cases reads : st.mayRead = true
  · rw [Stream.assembleOne_of_head sends before unassembled reads, if_pos no_byte]
    simp only [reads, List.isEmpty_iff, true_and]
  · rw [Stream.assembleOne_of_not_mayRead reads, if_neg fun h => reads h.1]

/-- The mark of a record of length 0 commits the bytes in FILLING (R55). -/
theorem Stream.commitEmptyMark_filling {k : Nat} {data : List Byte} (sends : st.sends = done ++ e :: later)
    (distinct : (st.sends.map SendEntry.position).Nodup) (fills : st.filling? = some (k, data)) (some_byte : data ≠ []) :
    st.commitEmptyMark e = some { st with
      sends := done ++ { e with markCarried := true } :: later
      buffers := st.buffers.set k (.committed data true), queue := st.queue ++ [k] } := by
  cases data with
  | nil => exact absurd rfl some_byte
  | cons b data =>
    rw [Stream.commitEmptyMark, fills]
    exact congrArg some (Stream.modSend_at (st := st.commitBuffer k (b :: data) true) rfl sends distinct _)

/-- With no byte in FILLING the mark takes a FREE buffer for an empty packet, or waits for one (R55). -/
theorem Stream.commitEmptyMark_empty (sends : st.sends = done ++ e :: later)
    (distinct : (st.sends.map SendEntry.position).Nodup)
    (empty : ∀ k, st.buffers.findIdx? Buffer.isFilling = some k → st.buffer k = .filling []) :
    st.commitEmptyMark e = st.freeIndex.map fun k => { st with
      sends := done ++ { e with markCarried := true } :: later
      buffers := st.buffers.set k (.committed [] true), queue := st.queue ++ [k] } := by
  unfold Stream.commitEmptyMark
  dsimp only
  split
  · next k b data fills => cases Stream.filling?_of_empty empty fills
  · cases free : st.freeIndex with
    | none => rfl
    | some k => exact congrArg some (Stream.modSend_at (st := st.commitBuffer k [] true) rfl sends distinct _)

/-! ### Placements -/

/-- The read ends where a marked record ends, so its last byte carries the mark (R52). -/
def SendRead.carriesMarkOf (r : SendRead) (e : SendEntry) : Bool :=
  e.eom && r.addr + BitVec.ofNat 64 r.length == e.addr + BitVec.ofNat 64 e.length

theorem SendRead.carriesMarkOf_iff (r : SendRead) (e : SendEntry) : r.carriesMarkOf e = true ↔
    e.eom = true ∧ r.addr + BitVec.ofNat 64 r.length = e.addr + BitVec.ofNat 64 e.length := by
  simp [SendRead.carriesMarkOf]

/-- What a placement does with returned data (R33, R34, R52, R54): `e` counts what fits, and takes the mark with its last
byte; the packet is committed at L bytes or with the mark. -/
theorem Stream.placeBytes_eq {r : SendRead} {rest : List SendRead} {data cur : List Byte} {k fits : Nat} {marked : Bool}
    (sends : st.sends = done ++ e :: later) (distinct : (st.sends.map SendEntry.position).Nodup)
    (position : r.position = e.position) (cur_fits : cur.length ≤ st.maxLen) (room : st.maxLen - cur.length = fits)
    (mark : (decide (data.length ≤ fits) && r.carriesMarkOf e) = marked) :
    st.placeBytes r rest data k cur = { st with
      reads := if data.length ≤ fits then rest else { r with data := some (data.drop fits) } :: rest
      sends := done ++ { e with read := e.read + min fits data.length, markCarried := e.markCarried || marked } :: later
      buffers := st.buffers.set k (if marked ∨ fits ≤ data.length then .committed (cur ++ data.take fits) marked
        else .filling (cur ++ data.take fits))
      queue := if marked ∨ fits ≤ data.length then st.queue ++ [k] else st.queue } := by
  have distinct_read : ((done ++ { e with read := e.read + min fits data.length } :: later).map
      SendEntry.position).Nodup := by
    rw [sends] at distinct
    simpa using distinct
  have counted : st.modSend r.position (fun x => { x with read := x.read + (data.take fits).length }) =
      { st with sends := done ++ { e with read := e.read + min fits data.length } :: later } := by
    rw [Stream.modSend_at position sends distinct, List.length_take]
  have none_left : (data.drop fits).isEmpty = decide (data.length ≤ fits) :=
    Bool.eq_iff_iff.mpr (by simp)
  have carries : (decide (data.length ≤ fits) && (done ++ { e with read := e.read + min fits data.length } :: later).any
      fun x => x.position == r.position && x.eom &&
        r.addr + BitVec.ofNat 64 r.length == x.addr + BitVec.ofNat 64 x.length) = marked := by
    have head := any_at_position (e := { e with read := e.read + min fits data.length }) position distinct_read
      r.carriesMarkOf
    simp only [SendRead.carriesMarkOf, ← Bool.and_assoc] at head mark
    rw [head, ← mark, Bool.and_assoc]
  have full : st.maxLen ≤ (cur ++ data.take fits).length ↔ fits ≤ data.length := by
    rw [List.length_append, List.length_take]
    omega
  unfold Stream.placeBytes
  simp only [room, counted, none_left, carries, full, decide_eq_true_eq]
  cases marked with
  | true =>
    refine (if_pos rfl).trans ((Stream.modSend_at (e := { e with read := e.read + min fits data.length }) position rfl
      distinct_read _).trans ?_)
    simp [Stream.commitBuffer]
  | false =>
    by_cases h : fits ≤ data.length
    · simp [h, Stream.commitBuffer]
    · simp [h, Stream.setBuffer]

theorem Stream.placeOne_eq {r : SendRead} {rest : List SendRead} {data cur : List Byte} {k : Nat}
    (reads : st.reads = r :: rest) (returned : r.data = some data) (target : st.fillTarget = some (k, cur)) :
    st.placeOne = some (st.placeBytes r rest data k cur) := by
  simp only [Stream.placeOne, reads, returned, target]

/-- Nothing is placed before the oldest read has returned (R52). -/
theorem Stream.placeOne_waits {r : SendRead} {rest : List SendRead} (reads : st.reads = r :: rest)
    (in_flight : r.data = none) : st.placeOne = none := by
  simp only [Stream.placeOne, reads, in_flight]

/-! ### The commit of a graceful close -/

/-- A graceful close has assembled and placed all there is (R57). -/
def Stream.closeReached (st : Stream) : Prop :=
  st.state = .closing ∧ st.cause = none ∧ st.reads = [] ∧
    ∀ e ∈ st.sends, e.requested = e.length ∧ (e.eom = true → e.markCarried = true)

theorem Stream.closeReached_iff (st : Stream) : st.closeReached ↔
    st.state = .closing ∧ st.cause = none ∧ st.reads = [] ∧ st.sends.all SendEntry.assembled = true := by
  simp only [Stream.closeReached, List.all_eq_true, SendEntry.assembled_iff]

theorem Stream.closeCommit_eq {k : Nat} {data : List Byte} (reached : st.closeReached)
    (fills : st.filling? = some (k, data)) (some_byte : data ≠ []) :
    st.closeCommit = some (st.commitBuffer k data false) := by
  rw [Stream.closeCommit, if_pos ((Stream.closeReached_iff st).mp reached), fills]
  cases data with
  | nil => exact absurd rfl some_byte
  | cons b data => rfl

theorem Stream.closeCommit_none
    (h : ¬st.closeReached ∨ ∀ k, st.buffers.findIdx? Buffer.isFilling = some k → st.buffer k = .filling []) :
    st.closeCommit = none := by
  rw [Stream.closeCommit]
  split
  · next reached =>
    have empty := h.resolve_left (not_not_intro ((Stream.closeReached_iff st).mpr reached))
    split
    · next fills => cases Stream.filling?_of_empty empty fills
    · rfl
  · rfl

/-! ### Records that leave -/

theorem Stream.mayLeave_iff (st : Stream) : st.mayLeave = true ↔
    (st.state = .active ∨ st.state = .halting ∨ st.state = .flushing ∨ st.state = .closing) ∧
      (st.stage = .idle ∨ st.stage = .waiting ∨ st.stage = .leaving) := by
  simp [Stream.mayLeave, or_assoc]

/-- The finished head of an OUT stream leaves while no completion is held, and forms its own unless it is quiet (R59). -/
theorem Stream.leaveOne_outbound (i : StreamId) {es : List SendEntry} (dir : st.dir = .outbound)
    (sends : st.sends = e :: es) : st.leaveOne i =
      if (st.mayLeave = true ∧ st.held = none) ∧ e.finished = true then
        some (if e.quiet then { st with sends := es } else { st with sends := es }.hold (sendCompletion i e .ok))
      else none := by
  simp only [Stream.leaveOne, dir, sends, ite_and]

end

/-! ### The statement -/

/-- Settles O28: for the assembly head one read, one mark or nothing; for the oldest read one placement; then the commit
of a graceful close and the leaving of the head. -/
theorem assemblerReadsAndPlaces : Obligations.AssemblerReadsAndPlaces := by
  refine ⟨fun st done later e sends distinct assembled => ?_, fun st all => ?_, fun st => ⟨?_, ?_⟩,
    fun i st e es dir sends => ?_⟩
  · have before : ∀ x ∈ done, x.assembled = true := fun x hx => x.assembled_iff.mpr (assembled x hx)
    intro filling free mayRead
    have mayRead_iff : st.mayRead = true ↔ mayRead := st.mayRead_iff
    refine ⟨fun _ left => ?_, fun some_byte requested eom mark => ?_, fun no_byte _ eom mark => ?_,
      fun r rest data cur k reads position target cur_fits => ?_⟩
    · intro room unplaced inFlight n
      have length : st.readLength e = n := by
        rw [Stream.readLength, st.room_eq, st.unplaced_eq]
        rfl
      have one := Stream.assembleOne_read sends distinct before left
      rw [length] at one
      refine ⟨fun may_not => ?_, fun full => ?_, fun may few some_left => ?_⟩
      · exact Stream.assembleOne_of_not_mayRead (may_not ∘ mayRead_iff.mp)
      · rw [one, if_neg fun ⟨_, few, some_left⟩ => full.elim (Nat.not_le_of_lt few) some_left]
      · rw [one, if_pos ⟨mayRead_iff.mpr may, few, some_left⟩]
        rfl
    · exact Stream.assembleOne_waits sends before some_byte requested eom mark
    · have one := Stream.assembleOne_mark sends before no_byte eom mark
      refine ⟨fun blocked => ?_, fun k data may placed found fills some_byte => ?_, fun k may placed empty found => ?_,
        fun empty full => ?_⟩
      · rw [one, if_neg fun ⟨may, placed⟩ => blocked.elim (· (mayRead_iff.mp may)) (· placed)]
      · rw [one, if_pos ⟨mayRead_iff.mpr may, placed⟩]
        exact Stream.commitEmptyMark_filling sends distinct (Stream.filling?_eq found fills) some_byte
      · rw [one, if_pos ⟨mayRead_iff.mpr may, placed⟩, Stream.commitEmptyMark_empty sends distinct empty]
        exact congrArg (Option.map _) found
      · rw [one, Stream.commitEmptyMark_empty sends distinct empty, show st.freeIndex = none from full, Option.map_none,
          ite_self]
    · intro fits ends counted
      have ends_iff : r.carriesMarkOf e = true ↔ ends := r.carriesMarkOf_iff e
      have placed : ∀ marked, (decide (data.length ≤ fits) && r.carriesMarkOf e) = marked → r.data = some data →
          st.placeOne = some (_ : Stream) := fun marked mark returned =>
        (Stream.placeOne_eq reads returned (Stream.fillTarget_eq target)).trans
          (congrArg some (Stream.placeBytes_eq sends distinct position cur_fits rfl mark))
      refine ⟨Stream.placeOne_waits reads, fun returned crosses => ?_, fun returned fit ending => ?_,
        fun returned exact_fit open_end => ?_, fun returned short open_end => ?_⟩
      · rw [placed false (by simp [Nat.not_le_of_lt crosses]) returned, if_neg (Nat.not_le_of_lt crosses),
          if_pos (.inr crosses.le), if_pos (.inr crosses.le), Nat.min_eq_left crosses.le]
      · rw [placed true (by simp [fit, ends_iff.mpr ending]) returned, if_pos fit, if_pos (.inl rfl), if_pos (.inl rfl),
          Nat.min_eq_right fit, List.take_of_length_le fit]
      · rw [placed false (by simp [mt ends_iff.mp open_end]) returned, if_pos exact_fit.le, if_pos (.inr exact_fit.ge),
          if_pos (.inr exact_fit.ge), Nat.min_eq_right exact_fit.le, List.take_of_length_le exact_fit.le]
      · have not_full : ¬(false = true ∨ fits ≤ data.length) := by simpa using short
        rw [placed false (by simp [mt ends_iff.mp open_end]) returned, if_pos short.le, if_neg not_full,
          if_neg not_full, Nat.min_eq_right short.le, List.take_of_length_le short.le]
  · exact Stream.assembleOne_of_assembled fun x hx => x.assembled_iff.mpr (all x hx)
  · exact Stream.closeCommit_none
  · exact fun k data reached found fills => Stream.closeCommit_eq reached (Stream.filling?_eq found fills)
  · have one := Stream.leaveOne_outbound i dir sends
    intro leaves
    have leaves_iff : (st.mayLeave = true ∧ st.held = none) ∧ e.finished = true ↔ leaves := by
      rw [st.mayLeave_iff, e.finished_iff]
      exact ⟨fun ⟨⟨⟨state, stage⟩, held⟩, finished⟩ => ⟨held, state, stage, finished⟩,
        fun ⟨held, state, stage, finished⟩ => ⟨⟨⟨state, stage⟩, held⟩, finished⟩⟩
    refine ⟨fun stays => ?_, fun goes quiet => ?_, fun goes loud => ?_⟩
    · rw [one, if_neg (stays ∘ leaves_iff.mp)]
    · rw [one, if_pos (leaves_iff.mpr goes), if_pos quiet]
    · rw [one, if_pos (leaves_iff.mpr goes), loud]
      obtain ⟨-, -, -, confirmed, -⟩ := goes
      rw [← confirmed]
      rfl

end Sys2Proof.Machine
end

section
/-! SUPPORT. How confirmed bytes and marks are credited to the outstanding entries (R58). -/

namespace Sys2Proof.Machine

open Sys2Proof

/-! ### Bytes -/

/-- What an entry still lacks of its length (R58). -/
def SendEntry.lacking (e : SendEntry) : Nat := e.length - e.confirmed

@[simp] theorem creditBytes_nil (n : Nat) : creditBytes n [] = [] := rfl

theorem creditBytes_cons (n : Nat) (e : SendEntry) (es : List SendEntry) : creditBytes n (e :: es) =
    { e with confirmed := e.confirmed + min n e.lacking } :: creditBytes (n - min n e.lacking) es := rfl

@[simp] theorem creditBytes_zero (es : List SendEntry) : creditBytes 0 es = es := by
  induction es with
  | nil => rfl
  | cons e es ih => simp [creditBytes_cons, ih]

@[simp] theorem length_creditBytes (n : Nat) (es : List SendEntry) : (creditBytes n es).length = es.length := by
  induction es generalizing n with
  | nil => rfl
  | cons e es ih => rw [creditBytes_cons, List.length_cons, List.length_cons, ih]

/-- No confirmed byte is lost while an entry lacks one. -/
theorem sum_confirmed_creditBytes (n : Nat) (es : List SendEntry) :
    ((creditBytes n es).map SendEntry.confirmed).sum =
      (es.map SendEntry.confirmed).sum + min n (es.map SendEntry.lacking).sum := by
  induction es generalizing n with
  | nil => simp
  | cons e es ih =>
    simp only [creditBytes_cons, List.map_cons, List.sum_cons, ih]
    omega

/-- The entry at a place, before and after the crediting of bytes: nothing but its confirmed count moves, it moves up and
not past the length, and it moves only when every earlier entry has its length. -/
structure CreditedAt (after : List SendEntry) (k : Nat) (e e' : SendEntry) : Prop where
  same : e' = { e with confirmed := e'.confirmed }
  rises : e.confirmed ≤ e'.confirmed
  bounded : e'.confirmed ≤ e.length
  inOrder : e.confirmed < e'.confirmed → ∀ j x, j < k → after[j]? = some x → x.confirmed = x.length

theorem creditBytes_creditedAt {n k : Nat} {es : List SendEntry} {e e' : SendEntry}
    (fits : ∀ x ∈ es, x.confirmed ≤ x.length) (before : es[k]? = some e) (after : (creditBytes n es)[k]? = some e') :
    CreditedAt (creditBytes n es) k e e' := by
  induction es generalizing n k with
  | nil => cases before
  | cons x es ih =>
    obtain ⟨x_fits, es_fit⟩ := List.forall_mem_cons.mp fits
    rw [creditBytes_cons] at after ⊢
    cases k with
    | zero =>
      have bounded : x.confirmed + min n x.lacking ≤ x.length := by
        rw [SendEntry.lacking]
        omega
      cases before
      cases after
      exact ⟨rfl, Nat.le_add_right .., bounded, fun _ _ _ earlier => absurd earlier (Nat.not_lt_zero _)⟩
    | succ k =>
      rw [List.getElem?_cons_succ] at before after
      obtain ⟨same, rises, bounded, inOrder⟩ := ih es_fit before after
      refine ⟨same, rises, bounded, fun moves j y earlier found => ?_⟩
      cases j with
      | zero =>
        cases found
        have bytes_left : n - min n x.lacking ≠ 0 := by
          intro none_left
          rw [none_left, creditBytes_zero, before] at after
          cases after
          exact Nat.lt_irrefl _ moves
        show x.confirmed + min n x.lacking = x.length
        rw [SendEntry.lacking] at bytes_left ⊢
        omega
      | succ j => exact inOrder moves j y (Nat.lt_of_succ_lt_succ earlier) found

/-! ### The mark -/

/-- The mark of the entry is carried and not yet confirmed (R58). -/
def SendEntry.lacksMark (e : SendEntry) : Bool := e.eom && e.markCarried && !e.markConfirmed

theorem SendEntry.lacksMark_iff (e : SendEntry) :
    e.lacksMark = true ↔ e.eom = true ∧ e.markCarried = true ∧ e.markConfirmed = false := by
  simp [SendEntry.lacksMark, and_assoc]

theorem creditMark_cons (e : SendEntry) (es : List SendEntry) : creditMark (e :: es) =
    if e.lacksMark then { e with markConfirmed := true } :: es else e :: creditMark es := rfl

theorem creditMark_of_none {es : List SendEntry} (h : ∀ e ∈ es, ¬e.lacksMark = true) : creditMark es = es := by
  induction es with
  | nil => rfl
  | cons e es ih =>
    obtain ⟨head, tail⟩ := List.forall_mem_cons.mp h
    rw [creditMark_cons, if_neg head, ih tail]

theorem creditMark_of_first {before after : List SendEntry} {e : SendEntry} (earlier : ∀ x ∈ before, ¬x.lacksMark = true)
    (first : e.lacksMark = true) :
    creditMark (before ++ e :: after) = before ++ { e with markConfirmed := true } :: after := by
  induction before with
  | nil => rw [List.nil_append, creditMark_cons, if_pos first, List.nil_append]
  | cons x before ih =>
    obtain ⟨head, tail⟩ := List.forall_mem_cons.mp earlier
    rw [List.cons_append, creditMark_cons, if_neg head, ih tail, List.cons_append]

/-! ### The finish cycle -/

theorem stampFinished_eq (cycle : CycleNum) (old new : SendEntry) : stampFinished cycle old new =
    if ¬old.finished = true ∧ new.finished = true then { new with finishCycle := some cycle } else new := by
  simp [stampFinished]

/-! ### The statement -/

/-- Settles O54: each crediting by induction on the outstanding list, the finish cycle by whether the entry was finished
before. -/
theorem confirmedBytesAreCreditedInRingOrder : Obligations.ConfirmedBytesAreCreditedInRingOrder := by
  refine ⟨fun n es fits => ⟨length_creditBytes n es, sum_confirmed_creditBytes n es, fun k e e' before after => ?_⟩,
    fun es => ⟨fun h => ?_, fun before e after split earlier first => ?_⟩, fun cycle old new => ?_, fun _ _ _ _ => rfl⟩
  · obtain ⟨same, rises, bounded, inOrder⟩ := creditBytes_creditedAt fits before after
    exact ⟨same, rises, bounded, inOrder⟩
  · exact creditMark_of_none fun e he => mt e.lacksMark_iff.mp (h e he)
  · rw [split]
    exact creditMark_of_first (fun x hx => mt x.lacksMark_iff.mp (earlier x hx)) (e.lacksMark_iff.mpr first)
  · intro finished
    have old_iff : old.finished = true ↔ finished old := old.finished_iff
    have new_iff : new.finished = true ↔ finished new := new.finished_iff
    rw [stampFinished_eq]
    refine ⟨fun unfinished ends => if_pos ⟨mt old_iff.mp unfinished, new_iff.mpr ends⟩, fun stays => if_neg ?_⟩
    exact fun ⟨unfinished, ends⟩ => stays.elim (unfinished ∘ old_iff.mpr) (· (new_iff.mp ends))

end Sys2Proof.Machine
end

section
/-! SUPPORT. How a send-buffer read and a receive-buffer write end (R52, R53, R71, R79). -/

namespace Sys2Proof.Machine

open Sys2Proof Host

/-! ### The place of a read -/

section Places

variable {r : SendRead} {reads : List SendRead}

/-- The place of a read is told read by read: one that has returned is passed over (R52). -/
theorem readPlace_returned (slot : Nat) (returned : r.data.isNone = false) :
    readPlace slot (r :: reads) = (readPlace slot reads).map Nat.succ := by
  simp [readPlace, List.range_succ_eq_map, returned, List.filter_map, Function.comp_def]

theorem readPlace_zero (in_flight : r.data.isNone = true) : readPlace 0 (r :: reads) = some 0 := by
  simp [readPlace, List.range_succ_eq_map, in_flight]

theorem readPlace_succ (slot : Nat) (in_flight : r.data.isNone = true) :
    readPlace (slot + 1) (r :: reads) = (readPlace slot reads).map Nat.succ := by
  simp [readPlace, List.range_succ_eq_map, in_flight, List.filter_map, Function.comp_def]

/-- A read in flight is the one of its slot: as many are in flight before it. -/
theorem readPlace_of_split (before after : List SendRead) (in_flight : r.data.isNone = true) :
    readPlace (before.countP fun x => x.data.isNone) (before ++ r :: after) = some before.length := by
  induction before with
  | nil => exact readPlace_zero in_flight
  | cons x before ih =>
    cases h : x.data.isNone with
    | false =>
      rw [List.countP_cons_of_neg (by simp [h]), List.cons_append, readPlace_returned _ h, ih]
      rfl
    | true =>
      rw [List.countP_cons_of_pos (p := fun x : SendRead => x.data.isNone) h, List.cons_append, readPlace_succ _ h, ih]
      rfl

end Places

/-! ### Send-buffer reads -/

section Reads

variable {b : Body} {i : StreamId} {st : Stream} {before after : List SendRead} {r : SendRead}

theorem Body.sendReadEnds_data (opened : b.stream i = some st) (reads : st.reads = before ++ r :: after)
    (in_flight : r.data = none) (data : List Byte) :
    b.sendReadEnds i (before.countP fun x => x.data.isNone) (some data) =
      b.put i st { st with reads := before ++ { r with data := some (fit r.length data) } :: after } := by
  simp [Body.sendReadEnds, opened, reads, readPlace_of_split before after (r := r) (by simp [in_flight])]

theorem Body.sendReadEnds_error (opened : b.stream i = some st) (reads : st.reads = before ++ r :: after)
    (in_flight : r.data = none) :
    b.sendReadEnds i (before.countP fun x => x.data.isNone) none = (b.put i st { st with
      reads := before ++ after
      failed := if st.failureCounts then some r.position else st.failed }).halt i .memoryError := by
  simp [Body.sendReadEnds, opened, reads, readPlace_of_split before after (r := r) (by simp [in_flight]),
    Stream.readFailed, List.eraseIdx_append_of_length_le]

/-- A stream that cannot halt stays as it is where a halt would follow (R9). -/
theorem Body.halt_put_of_not_mayHalt {new : Stream} (may_not : new.mayHalt = false) (cause : HaltCause) :
    (b.put i st new).halt i cause = b.put i st new := by
  rw [Body.halt_eq (Body.put_stream_self ..), Stream.stored_mayHalt, may_not, if_neg Bool.false_ne_true]

/-- Where no halt follows, a failed read counts in a halt for another cause (R53). -/
theorem Stream.failureCounts_iff (may_not : st.mayHalt = false) :
    st.failureCounts = true ↔ st.state = .halting ∧ st.cause ≠ some .memoryError := by
  simp [Stream.failureCounts, may_not]

end Reads

theorem fit_of_length {n : Nat} {bs : List Byte} (h : bs.length = n) : fit n bs = bs := by
  simp [fit, ← h]

/-! ### Receive-buffer writes -/

section Writes

variable {b : Body} {i : StreamId} {st : Stream} {w : ReceiveWrite} {rest : List ReceiveWrite}

theorem Body.receiveWriteEnds_accepted (opened : b.stream i = some st) (writes : st.writes = w :: rest)
    (sound : st.writeFailed = false) :
    b.receiveWriteEnds i true = b.put i st (Stream.countWrite w { st with writes := rest }) := by
  simp [Body.receiveWriteEnds, opened, writes, sound]

/-- After a failed write none is counted (R79). -/
theorem Body.receiveWriteEnds_uncounted (opened : b.stream i = some st) (writes : st.writes = w :: rest)
    (failed : st.writeFailed = true) : b.receiveWriteEnds i true = b.put i st { st with writes := rest } := by
  simp [Body.receiveWriteEnds, opened, writes, failed]

theorem Body.receiveWriteEnds_error (opened : b.stream i = some st) (writes : st.writes = w :: rest) :
    b.receiveWriteEnds i false =
      (b.put i st { st with writes := rest, writeFailed := true }).halt i .memoryError := by
  simp [Body.receiveWriteEnds, opened, writes]

/-- The head of the receive records once a write of the DRAINING packet is accepted (R71, R76). -/
def ReceiveEntry.countWrite (w : ReceiveWrite) (cycle : CycleNum) (gap : Bool) (e : ReceiveEntry) : ReceiveEntry :=
  { e with
    written := e.written + w.data.length
    firstCycle := if e.firstCycle = none then some cycle else e.firstCycle
    gap := e.gap || gap
    markDelivered := e.markDelivered || w.last }

/-- An accepted write counts in the head and in the DRAINING buffer, which becomes FREE with its last byte (R71). -/
theorem Stream.countWrite_eq {k written issued : Nat} {data : List Byte} {mark gap : Bool} {value : ArrivalValue}
    {cycle : CycleNum} {e : ReceiveEntry} {es : List ReceiveEntry} (drains : st.drainingIndex = some k)
    (buffer : st.buffer k = .draining data mark value cycle gap written issued) (receives : st.receives = e :: es) :
    st.countWrite w =
      let head := { st with receives := e.countWrite w cycle gap :: es }
      if data.length ≤ written + w.data.length then head.freeBuffer k
      else head.setBuffer k (.draining data mark value cycle false (written + w.data.length) issued) := by
  simp [Stream.countWrite, drains, buffer, Stream.modHead, receives, ReceiveEntry.countWrite]

end Writes

/-! ### The ends of transfers as events -/

theorem FnState.ne_faulted {fn : FnState} (h : fn = .running ∨ fn = .stopping) : fn ≠ .faulted := by
  rcases h with rfl | rfl <;> nofun

theorem exec_sendBufferReadReturn {s : State} (running : s.fn ≠ .faulted) (i : StreamId) (slot : Nat)
    (result : Option (List Byte)) :
    exec (.sendBufferReadReturn i slot result) s = .next (s.onBody (Body.sendReadEnds i slot result)).settle :=
  congrArg Outcome.next (State.event_eq running _)

theorem exec_receiveBufferWriteEnd {s : State} (running : s.fn ≠ .faulted) (i : StreamId) (ok : Bool) :
    exec (.receiveBufferWriteEnd i ok) s = .next (s.onBody (Body.receiveWriteEnds i ok)).settle :=
  congrArg Outcome.next (State.event_eq running _)

/-! ### The statement -/

/-- Settles O27: the end of a read finds it by its place, the end of a write is the oldest's; what a failure changes
depends on whether the stream can halt. -/
theorem sendReadsAndReceiveWritesEnd : Obligations.SendReadsAndReceiveWritesEnd := by
  refine ⟨fun s i st before after r data fn opened reads in_flight length => ?_,
    fun s i st w rest fn opened writes => ⟨fun k data mark gap value cycle written issued e es sound drains buffer
      receives => ?_, fun failed => ?_, ?_⟩⟩
  · have running := FnState.ne_faulted fn
    have error := Body.sendReadEnds_error opened reads in_flight
    intro slot
    refine ⟨?_, fun may => ?_, fun may_not => ?_⟩
    · rw [exec_sendBufferReadReturn running, State.onBody, Body.sendReadEnds_data opened reads in_flight,
        fit_of_length length]
      rfl
    · rw [exec_sendBufferReadReturn running, State.onBody, error, Stream.failureCounts, may]
      rfl
    · rw [exec_sendBufferReadReturn running, State.onBody, error, Body.halt_put_of_not_mayHalt]
      · simp only [Stream.failureCounts_iff may_not]
        rfl
      · exact may_not
  · have running := FnState.ne_faulted fn
    have counts := Stream.countWrite_eq (st := { st with writes := rest }) (w := w) drains buffer receives
    intro head
    refine ⟨fun some_left => ?_, fun all => ?_⟩
    all_goals
      rw [exec_receiveBufferWriteEnd running, State.onBody, Body.receiveWriteEnds_accepted opened writes sound, counts]
    · rw [if_neg (Nat.not_le_of_lt some_left)]
      rfl
    · rw [if_pos all]
      rfl
  · rw [exec_receiveBufferWriteEnd (FnState.ne_faulted fn), State.onBody,
      Body.receiveWriteEnds_uncounted opened writes failed]
    rfl
  · rw [exec_receiveBufferWriteEnd (FnState.ne_faulted fn), State.onBody, Body.receiveWriteEnds_error opened writes]
    rfl

end Sys2Proof.Machine
end

section
/-! SUPPORT. What the Inbound Distributor does on its own (R69 to R74): the packet it takes, the write it issues, and
the leaving of done records. -/

namespace Sys2Proof.Machine

open Sys2Proof

/-! ### Receive records -/

theorem ReceiveEntry.isOpen_iff (e : ReceiveEntry) :
    e.isOpen = true ↔ e.issued < e.capacity ∧ e.markIssued = false := by
  simp [ReceiveEntry.isOpen]

/-- A record that is full or has its mark issued is closed (4.2). -/
theorem ReceiveEntry.not_isOpen_iff (e : ReceiveEntry) :
    ¬e.isOpen = true ↔ e.capacity ≤ e.issued ∨ e.markIssued = true := by
  rw [e.isOpen_iff, not_and_or, Nat.not_lt, Bool.not_eq_false]

theorem ReceiveEntry.isDone_iff (e : ReceiveEntry) : e.isDone = true ↔
    (e.capacity ≤ e.issued ∨ e.markIssued = true) ∧ e.written = e.issued ∧
      (e.markIssued = true → e.markDelivered = true) := by
  rw [← e.not_isOpen_iff]
  cases issued : e.markIssued <;> simp [ReceiveEntry.isDone, issued, and_assoc]

section

variable {st st' : Stream} {e : ReceiveEntry} {es : List ReceiveEntry}

theorem Stream.mayWrite_iff (st : Stream) : st.mayWrite = true ↔
    st.state = .active ∨ (st.state = .closing ∧ st.cause = none ∧ st.stage = .waiting) := by
  simp [Stream.mayWrite, and_assoc]

/-- The stream may write, and the head of its list is open (R3, R69, R70). -/
def Stream.deliversInto (st : Stream) (e : ReceiveEntry) : Prop :=
  st.mayWrite = true ∧ st.receives.head? = some e ∧ e.isOpen = true

theorem Stream.deliversInto.head_eq {x : ReceiveEntry} (into : st.deliversInto x) (receives : st.receives = e :: es) :
    x = e := by
  obtain ⟨-, head, -⟩ := into
  rw [receives] at head
  exact (Option.some.inj head).symm

theorem Stream.deliversInto.receives_ne_nil (into : st.deliversInto e) : st.receives ≠ [] := by
  obtain ⟨-, head, -⟩ := into
  exact fun empty => nomatch empty ▸ head

theorem Stream.drainingIndex_eq_none_iff (st : Stream) :
    st.drainingIndex = none ↔ st.buffers.any Buffer.isDraining = false := by
  rw [Stream.drainingIndex, List.findIdx?_eq_none_iff, List.any_eq_false]
  simp only [Bool.not_eq_true]

/-! ### The packet that is taken -/

/-- All that a take rests on (R69). -/
theorem Stream.of_takeHeld (h : st.takeHeld = some st') :
    (∃ e, st.deliversInto e) ∧ st.queue ≠ [] ∧ st.drainingIndex = none := by
  unfold Stream.takeHeld at h
  split at h
  · next may =>
    split at h
    · next e es k ks receives queue none_drains =>
      split at h
      · next is_open => exact ⟨⟨e, may, by rw [receives]; rfl, is_open⟩, by rw [queue]; nofun, none_drains⟩
      · cases h
    · cases h
  · cases h

theorem Stream.takeHeld_eq_none
    (h : (∀ e, ¬st.deliversInto e) ∨ st.queue = [] ∨ st.drainingIndex ≠ none) : st.takeHeld = none := by
  refine Option.eq_none_iff_forall_ne_some.mpr fun st' taken => ?_
  obtain ⟨⟨e, into⟩, some_packet, none_drains⟩ := Stream.of_takeHeld taken
  rcases h with no_head | no_packet | drains
  · exact no_head e into
  · exact some_packet no_packet
  · exact drains none_drains

section Taken

variable {k : Nat} {ks : List Nat} {data : List Byte} {mark gap : Bool} {value : ArrivalValue} {cycle : CycleNum}

/-- The oldest HELD packet becomes DRAINING with nothing issued (R69). -/
theorem Stream.takeHeld_bytes (into : st.deliversInto e) (queue : st.queue = k :: ks)
    (none_drains : st.drainingIndex = none) (held : st.buffer k = .held data mark value cycle gap)
    (some_byte : data ≠ []) :
    st.takeHeld = some (st.setBuffer k (.draining data mark value cycle gap 0 0)) := by
  obtain ⟨may, head, is_open⟩ := into
  obtain ⟨es, receives⟩ := List.head?_eq_some_iff.mp head
  cases data with
  | nil => exact absurd rfl some_byte
  | cons x data => simp [Stream.takeHeld, may, receives, queue, none_drains, is_open, held]

/-- An empty packet is delivered at once (R73). -/
theorem Stream.takeHeld_empty (into : st.deliversInto e) (queue : st.queue = k :: ks)
    (none_drains : st.drainingIndex = none) (held : st.buffer k = .held [] mark value cycle gap) :
    st.takeHeld = some ((st.freeBuffer k).modHead (ReceiveEntry.takeEmpty mark cycle gap)) := by
  obtain ⟨may, head, is_open⟩ := into
  obtain ⟨es, receives⟩ := List.head?_eq_some_iff.mp head
  simp [Stream.takeHeld, may, receives, queue, none_drains, is_open, held]

end Taken

/-- What an empty packet leaves in an open record: its mark ends the record and gives it a first cycle (R73). -/
theorem ReceiveEntry.takeEmpty_of_isOpen (is_open : e.isOpen = true) (mark : Bool) (cycle : CycleNum) (gap : Bool) :
    e.takeEmpty mark cycle gap = { e with
      markIssued := mark, markDelivered := e.markDelivered || mark
      firstCycle := if mark = true ∧ e.firstCycle = none then some cycle else e.firstCycle
      gap := e.gap || gap } := by
  obtain ⟨-, unmarked⟩ := e.isOpen_iff.mp is_open
  simp [ReceiveEntry.takeEmpty, unmarked]

/-! ### The write that is issued -/

/-- All that a write rests on, whatever the DRAINING packet still holds (R70). -/
theorem Stream.of_issueWrite (h : st.issueWrite = some st') :
    (∃ e, st.deliversInto e) ∧ st.writes.length < 4 ∧ st.drainingIndex ≠ none := by
  unfold Stream.issueWrite at h
  split at h
  · next can =>
    obtain ⟨may, few⟩ := can
    split at h
    · next e es k receives drains =>
      split at h
      · split at h
        · next ready => exact ⟨⟨e, may, by rw [receives]; rfl, ready.left⟩, few, by rw [drains]; nofun⟩
        · cases h
      · cases h
    · cases h
  · cases h

theorem Stream.issueWrite_eq_none
    (h : (∀ e, ¬st.deliversInto e) ∨ 4 ≤ st.writes.length ∨ st.drainingIndex = none) :
    st.issueWrite = none := by
  refine Option.eq_none_iff_forall_ne_some.mpr fun st' issued => ?_
  obtain ⟨⟨e, into⟩, few, drains⟩ := Stream.of_issueWrite issued
  rcases h with no_head | full | none_drains
  · exact no_head e into
  · exact Nat.not_lt.mpr full few
  · exact drains none_drains

/-- The next bytes of the DRAINING packet, as far as one write carries them and the open head takes them (R70, R72);
the write of a marked packet's last byte sets the head's mark issued (R73). -/
theorem Stream.issueWrite_draining {k written issued n : Nat} {data : List Byte} {mark gap : Bool}
    {value : ArrivalValue} {cycle : CycleNum} (into : st.deliversInto e) (receives : st.receives = e :: es)
    (drains : st.drainingIndex = some k)
    (buffer : st.buffer k = .draining data mark value cycle gap written issued)
    (size : n = min (min 256 (data.length - issued)) (e.capacity - e.issued)) :
    st.issueWrite = if st.writes.length < 4 ∧ issued < data.length then
      some { st with
        buffers := st.buffers.set k (.draining data mark value cycle gap written (issued + n))
        receives := { e with issued := e.issued + n, markIssued := mark && issued + n == data.length } :: es
        writes := st.writes ++ [
          { addr := e.addr + BitVec.ofNat 64 e.issued, data := (data.drop issued).take n
            last := mark && issued + n == data.length }] }
      else none := by
  obtain ⟨may, -, is_open⟩ := into
  obtain ⟨-, unmarked⟩ := e.isOpen_iff.mp is_open
  subst size
  simp [Stream.issueWrite, may, receives, drains, buffer, is_open, unmarked, Stream.setBuffer, Stream.modHead, ite_and]

/-! ### Records that leave -/

/-- The done head of an IN stream leaves while no completion is held, and forms its own unless it is quiet (R74). -/
theorem Stream.leaveOne_inbound (i : StreamId) (dir : st.dir = .inbound) (receives : st.receives = e :: es) :
    st.leaveOne i = if (st.mayLeave = true ∧ st.held = none) ∧ e.isDone = true then
        some (if e.quiet then { st with receives := es }
          else { st with receives := es }.hold (receiveCompletion i e .ok))
      else none := by
  simp only [Stream.leaveOne, dir, receives, ite_and]

end

/-! ### The statement -/

/-- Settles O29: what bars a take or a write by what each rests on, then the packet taken, the write issued and the
leaving of the head. -/
theorem distributorTakesAndWrites : Obligations.DistributorTakesAndWrites := by
  refine ⟨fun st => ⟨fun barred => ?_, fun barred => ?_⟩, fun st e es receives => ?_⟩
  · refine Stream.takeHeld_eq_none ?_
    rcases barred with no_record | no_packet | drains
    · exact .inl fun e into => into.receives_ne_nil no_record
    · exact .inr (.inl no_packet)
    · exact .inr (.inr fun none_drains => by simp [st.drainingIndex_eq_none_iff.mp none_drains] at drains)
  · refine Stream.issueWrite_eq_none ?_
    rcases barred with no_record | none_drains
    · exact .inl fun e into => into.receives_ne_nil no_record
    · exact .inr (.inr (st.drainingIndex_eq_none_iff.mpr none_drains))
  · intro mayWrite
    have mayWrite_iff : st.mayWrite = true ↔ mayWrite := st.mayWrite_iff
    have nothing (barred : ∀ x, ¬st.deliversInto x) : st.takeHeld = none ∧ st.issueWrite = none :=
      ⟨Stream.takeHeld_eq_none (.inl barred), Stream.issueWrite_eq_none (.inl barred)⟩
    refine ⟨fun may_not => nothing fun _ ⟨may, _⟩ => may_not (mayWrite_iff.mp may),
      fun closed => nothing fun x into => ?_,
      fun full => Stream.issueWrite_eq_none (.inr (.inl full)), fun may room unmarked => ?_, fun i dir => ?_⟩
    · obtain rfl := into.head_eq receives
      obtain ⟨-, -, is_open⟩ := into
      exact x.not_isOpen_iff.mpr closed is_open
    · have is_open : e.isOpen = true := e.isOpen_iff.mpr ⟨room, unmarked⟩
      have into : st.deliversInto e := ⟨mayWrite_iff.mpr may, by rw [receives]; rfl, is_open⟩
      refine ⟨fun k ks data mark value cycle gap queue none_drains held => ⟨?_, fun empty => ?_⟩,
        fun k data mark value cycle gap written issued drains buffer => ?_⟩
      · exact Stream.takeHeld_bytes into queue none_drains held
      · rw [Stream.takeHeld_empty into queue none_drains (empty ▸ held), Stream.modHead,
          ← ReceiveEntry.takeEmpty_of_isOpen is_open]
        simp [Stream.freeBuffer, receives]
      · intro n
        have one := Stream.issueWrite_draining into receives drains buffer (n := n) rfl
        refine ⟨fun all_issued => ?_, fun some_left few => ⟨mark && issued + n == data.length, ?_, ?_⟩⟩
        · rw [one, if_neg fun ⟨_, some_left⟩ => Nat.not_lt.mpr all_issued some_left]
        · rw [Bool.and_eq_true, beq_iff_eq]
        · rw [one, if_pos ⟨few, some_left⟩]
    · have one := Stream.leaveOne_inbound i dir receives
      intro leaves
      have leaves_iff : (st.mayLeave = true ∧ st.held = none) ∧ e.isDone = true ↔ leaves := by
        rw [st.mayLeave_iff, e.isDone_iff]
        exact ⟨fun ⟨⟨⟨state, stage⟩, held⟩, done⟩ => ⟨held, state, stage, done⟩,
          fun ⟨held, state, stage, done⟩ => ⟨⟨⟨state, stage⟩, held⟩, done⟩⟩
      refine ⟨fun stays => ?_, fun goes quiet => ?_, fun goes loud => ?_⟩
      · rw [one, if_neg (stays ∘ leaves_iff.mp)]
      · rw [one, if_pos (leaves_iff.mpr goes), if_pos quiet]
      · rw [one, if_pos (leaves_iff.mpr goes), loud]
        rfl

end Sys2Proof.Machine
end

section
/-! SUPPORT. A store event and the level watch of its stream (R88, R89), with the measures of 2.5. -/

namespace Sys2Proof.Machine

open Sys2Proof

/-! ### Measures -/

/-- The open-packet measure as a sum over all buffers: those that are not FILLING add nothing (2.5). -/
theorem sum_map_count_filter_isFilling (bs : List Buffer) :
    ((bs.filter Buffer.isFilling).map Buffer.count).sum = (bs.map fun b => match b with
      | .filling data => data.length
      | _ => 0).sum := by
  induction bs with
  | nil => rfl
  | cons b bs ih =>
    rw [List.map_cons, List.sum_cons, ← ih]
    cases b with
    | filling data => rfl
    | _ => exact (Nat.zero_add _).symm

/-! ### The condition of a watch -/

@[simp] theorem watchCondition_atOrAbove (threshold value : Nat) :
    watchCondition .atOrAbove threshold value = true ↔ threshold ≤ value := decide_eq_true_iff

@[simp] theorem watchCondition_atOrBelow (threshold value : Nat) :
    watchCondition .atOrBelow threshold value = true ↔ value ≤ threshold := decide_eq_true_iff

/-! ### The watch after a store event -/

section

variable {old new : Stream} {w : Watch}

theorem watchAfter_of_off (off : new.watch = none) : watchAfter old new = (none, none) := by
  rw [watchAfter, off]

/-- The watch stays where its measure stays or its condition does (R89). -/
theorem watchAfter_of_same (on : new.watch = some w)
    (same : old.measure w.measure = new.measure w.measure ∨
      watchCondition w.dir w.threshold (new.measure w.measure) = w.condition) :
    watchAfter old new = (some w, none) := by
  rw [watchAfter, on]
  exact if_neg fun ⟨moved, changed⟩ => same.elim moved changed

/-- A changed condition is kept and reported (R89). -/
theorem watchAfter_of_changed (on : new.watch = some w) (moved : old.measure w.measure ≠ new.measure w.measure)
    (changed : watchCondition w.dir w.threshold (new.measure w.measure) ≠ w.condition) :
    watchAfter old new = (some { w with condition := !w.condition }, some !w.condition) := by
  rw [watchAfter, on, ← Bool.eq_not_of_ne changed]
  exact if_pos ⟨moved, changed⟩

/-- A store event that leaves the watch as it is leaves the new stream, and raises nothing. -/
theorem Body.put_of_watch_kept (i : StreamId) (b : Body) (kept : watchAfter old new = (new.watch, none)) :
    (b.put i old new).stream i = some new ∧ (b.put i old new).events = b.events := by
  rw [Body.put_stream_self, Body.put_eq, Stream.stored, kept]
  exact ⟨rfl, rfl⟩

/-- A store event that changes the watch's condition keeps the watch with it, and raises WATCH once. -/
theorem Body.put_of_watch_changed (i : StreamId) (b : Body) {c : Bool}
    (changed : watchAfter old new = (some w, some c)) :
    (b.put i old new).stream i = some { new with watch := some w } ∧
      (b.put i old new).events = raiseInto (some i) (.watch c) b.events := by
  rw [Body.put_stream_self, Body.put_eq, Stream.stored, changed]
  exact ⟨rfl, rfl⟩

end

/-! ### The statement -/

/-- Settles O33: the measures by their buffers, then the watch by its mode and by whether its condition changes. -/
theorem watchesFollowTheStore : Obligations.WatchesFollowTheStore := by
  refine ⟨fun st => ⟨sum_map_count_filter_isFilling st.buffers,
    congrArg List.sum (map_left_eq_map_occupancy st.buffers).symm⟩, fun b i old new _ =>
    ⟨fun j other => Body.put_stream_ne other old new b, fun off => ?_, fun w on => ?_⟩⟩
  · exact Body.put_of_watch_kept i b ((watchAfter_of_off off).trans (by rw [off]))
  intro value holds
  have holds_iff : watchCondition w.dir w.threshold value = true ↔ holds := by
    obtain ⟨threshold, dir, measure, condition⟩ := w
    cases dir with
    | atOrAbove => exact watchCondition_atOrAbove threshold value
    | atOrBelow => exact watchCondition_atOrBelow threshold value
  have stays_iff : watchCondition w.dir w.threshold value = w.condition ↔ (w.condition = true ↔ holds) := by
    rw [eq_comm, Bool.eq_iff_iff, holds_iff]
  refine ⟨fun same => ?_, fun moved changed => ?_⟩
  · exact Body.put_of_watch_kept i b
      ((watchAfter_of_same on (same.imp_right stays_iff.mpr)).trans (by rw [on]))
  · exact Body.put_of_watch_changed i b (watchAfter_of_changed on moved (changed ∘ stays_iff.mp))

end Sys2Proof.Machine
end

section
/-! SUPPORT. SET_WATCH (R85 to R88). -/

namespace Sys2Proof.Machine

open Sys2Proof Host

/-! ### The command as an event -/

/-- The record of a SET_WATCH (11.4, "Admin request"). -/
def AdminRecord.ofWatch (stream : Byte) (tag : Tag) (mode dir measure : Byte) (threshold : Word) : AdminRecord :=
  { AdminRecord.plain 6 stream tag with p0 := mode, p1 := dir, p2 := measure, w1 := threshold }

/-- A SET_WATCH sets no reserved field (R168). -/
theorem AdminRecord.wellFormed_ofWatch (stream : Byte) (tag : Tag) (mode dir measure : Byte) (threshold : Word) :
    (AdminRecord.ofWatch stream tag mode dir measure threshold).wellFormed = true := rfl

/-- A well-formed stream request that takes no claim is not refused, whoever holds the claim (R168, R170). -/
theorem admissionRefusal_none_of_unclaiming {r : AdminRecord} {i : StreamId} (wf : r.wellFormed = true)
    (code : isStreamCode r.code = true) (field : i.val = r.field.toNat) (unclaiming : isClaimCode r.code = false)
    (table : List Entry) : admissionRefusal r table = none := by
  simp [admissionRefusal, wf, code, streamOf_eq_some field, unclaiming]

/-- A stream request that takes no claim is carried out on the part that has taken it, and what follows from it
runs. -/
theorem State.event_unclaimingRequest {s : State} {ring : HostRing} {r : AdminRecord} {i : StreamId}
    (h : s.awaitsRequest ring) (wf : r.wellFormed = true) (code : isStreamCode r.code = true)
    (field : i.val = r.field.toNat) (unclaiming : isClaimCode r.code = false) :
    s.event (State.requestArrives r) = ((s.withRequest ring r true).carryOutStream s.body.nextId i r).followed := by
  refine State.event_requestArrives h ?_ (State.carryOutStream_admin _ _ _ _)
  simp [State.takeRequest, admissionRefusal_none_of_unclaiming wf code field unclaiming, code,
    streamOf_eq_some field]
  rfl

theorem exec_setWatch {s : State} {ring : HostRing} {stream : Byte} {i : StreamId} (h : s.awaitsRequest ring)
    (field : i.val = stream.toNat) (tag : Tag) (mode dir measure : Byte) (threshold : Word) :
    exec (.setWatch tag stream mode dir measure threshold) s =
      .next ((s.withRequest ring (AdminRecord.ofWatch stream tag mode dir measure threshold) true).watchRequest
        s.body.nextId i mode dir measure threshold).followed :=
  congrArg Outcome.next (State.event_unclaimingRequest h
    (AdminRecord.wellFormed_ofWatch stream tag mode dir measure threshold) rfl field rfl)

/-! ### The settings asked for -/

theorem WatchDirection.ofCode_eq_some_iff {c : Byte} {d : WatchDirection} :
    WatchDirection.ofCode c = some d ↔ (c = 1 ∧ d = .atOrAbove) ∨ (c = 2 ∧ d = .atOrBelow) := by
  unfold WatchDirection.ofCode
  split <;> simp_all [eq_comm]

theorem Measure.ofCode_eq_some_iff {c : Byte} {m : Measure} :
    Measure.ofCode c = some m ↔ (c = 1 ∧ m = .wholeStore) ∨ (c = 2 ∧ m = .openPacket) := by
  unfold Measure.ofCode
  split <;> simp_all [eq_comm]

/-- What checks 3 and 4 of R85 let through, and the watch it asks for. -/
theorem Stream.watchAsked_eq_some_iff {dir measure : Byte} {threshold : Word} {st : Stream} {w : Watch} :
    st.watchAsked dir measure threshold = some w ↔ ∃ d m,
      WatchDirection.ofCode dir = some d ∧ Measure.ofCode measure = some m ∧ threshold.toNat ≤ 49152 ∧
      ¬(m = .openPacket ∧ st.dir = .inbound) ∧
      w = { threshold := threshold.toNat, dir := d, measure := m,
            condition := watchCondition d threshold.toNat (st.measure m) } := by
  unfold Stream.watchAsked
  split
  · next d m dir_code measure_code =>
    rw [dir_code, measure_code]
    split
    · next passes =>
      refine ⟨fun asked => ⟨d, m, rfl, rfl, passes.left, by simpa [imp_iff_not_or] using passes.right, ?_⟩, ?_⟩
      · exact (Option.some.inj asked).symm
      · rintro ⟨_, _, ⟨⟩, ⟨⟩, -, -, rfl⟩
        rfl
    · next fails =>
      refine ⟨nofun, ?_⟩
      rintro ⟨_, _, ⟨⟩, ⟨⟩, small, allowed, -⟩
      exact absurd ⟨small, by simpa [imp_iff_not_or] using allowed⟩ fails
  · next unknown =>
    exact ⟨nofun, fun ⟨d, m, dir_code, measure_code, _⟩ => absurd measure_code (unknown d m dir_code)⟩

/-! ### The request carried out -/

section

variable {s : State} {i : StreamId} {st : Stream} {mode dir measure : Byte} {threshold : Word} (id : Nat)

theorem State.watchRequest_closed (closed : s.body.stream i = none) :
    s.watchRequest id i mode dir measure threshold = s.finish id .wrongState 0 := by
  simp only [State.watchRequest, closed]

theorem State.watchRequest_off (opened : s.body.stream i = some st) :
    s.watchRequest id i 0 dir measure threshold =
      (s.withStream i st { st with watch := none }).finish id .ok 0 := by
  simp only [State.watchRequest, opened]
  rfl

theorem State.watchRequest_refused (opened : s.body.stream i = some st) (not_off : mode ≠ 0)
    (bad : mode = 1 → st.watchAsked dir measure threshold = none) :
    s.watchRequest id i mode dir measure threshold = s.finish id .badRequest 0 := by
  simp only [State.watchRequest, opened, if_neg not_off]
  split
  · next on => rw [bad on]
  · rfl

/-- The watch takes the settings, and is reported at once if they give the condition ON (R86). -/
theorem State.watchRequest_on {w : Watch} (opened : s.body.stream i = some st)
    (asked : st.watchAsked dir measure threshold = some w) :
    s.watchRequest id i 1 dir measure threshold =
      (if w.condition then (s.withStream i st { st with watch := some w }).withEvent (some i) (.watch true)
        else s.withStream i st { st with watch := some w }).finish id .ok (if w.condition then 1 else 0) := by
  simp only [State.watchRequest, opened, asked]
  cases w.condition <;> rfl

end

/-! ### The statement -/

/-- Settles O19: each check is reached only once those before it have passed. -/
theorem setWatchTakesTheSettings : Obligations.SetWatchTakesTheSettings := by
  intro s ring tag stream mode dir measure threshold i awaits field c r refused
  have carried : ∀ t, (s.withRequest ring r true).watchRequest s.body.nextId i mode dir measure threshold = t →
      exec c s = .next t.followed :=
    fun _ h => h ▸ exec_setWatch awaits field tag mode dir measure threshold
  refine ⟨fun closed => carried _ (State.watchRequest_closed _ closed), fun st opened => ?_⟩
  have not_asked (on : mode = 1) (none_asked : st.watchAsked dir measure threshold = none) : refused .badRequest :=
    carried _ (State.watchRequest_refused _ opened (by rw [on]; decide) fun _ => none_asked)
  refine ⟨fun not_off not_on => ?_, fun on bad => not_asked on ?_, fun on two inbound => not_asked on ?_,
    fun off => ?_, fun on small d m dir_code measure_code => ?_⟩
  · exact carried _ (State.watchRequest_refused _ opened not_off fun on => absurd on not_on)
  · refine Option.eq_none_iff_forall_ne_some.mpr fun w asked => ?_
    obtain ⟨d, m, dir_code, measure_code, small, -⟩ := Stream.watchAsked_eq_some_iff.mp asked
    rcases bad with large | ⟨not_above, not_below⟩ | ⟨not_whole, not_open⟩
    · exact Nat.not_lt.mpr small large
    · exact (WatchDirection.ofCode_eq_some_iff.mp dir_code).elim (not_above ·.left) (not_below ·.left)
    · exact (Measure.ofCode_eq_some_iff.mp measure_code).elim (not_whole ·.left) (not_open ·.left)
  · refine Option.eq_none_iff_forall_ne_some.mpr fun w asked => ?_
    obtain ⟨d, m, -, measure_code, -, not_inbound, -⟩ := Stream.watchAsked_eq_some_iff.mp asked
    obtain ⟨whole, -⟩ | ⟨-, rfl⟩ := Measure.ofCode_eq_some_iff.mp measure_code
    · exact absurd (whole.symm.trans two) (by decide)
    · exact not_inbound ⟨rfl, inbound⟩
  · subst off
    exact carried _ (State.watchRequest_off _ opened)
  · subst on
    refine ⟨watchCondition d threshold.toNat (st.measure m), ?_, ?_⟩
    · cases d with
      | atOrAbove => exact watchCondition_atOrAbove _ _
      | atOrBelow => exact watchCondition_atOrBelow _ _
    · have applies : ¬(m = .openPacket ∧ st.dir = .inbound) := by
        rintro ⟨rfl, inbound⟩
        obtain ⟨-, ⟨⟩⟩ | ⟨-, -, outbound⟩ := measure_code
        cases inbound.symm.trans outbound
      have asked := Stream.watchAsked_eq_some_iff.mpr ⟨d, m, WatchDirection.ofCode_eq_some_iff.mpr dir_code,
        Measure.ofCode_eq_some_iff.mpr (measure_code.imp_right fun ⟨two, is_open, _⟩ => ⟨two, is_open⟩), small,
        applies, rfl⟩
      exact carried _ (State.watchRequest_on (s := s.withRequest ring r true) _ opened asked)

end Sys2Proof.Machine
end

section
/-! SUPPORT. The timebase: what a step with no command waiting does, and which timers have come to their time (R97,
R102, R137, R139, R143; notes/assumptions/7.md). -/

namespace Sys2Proof.Machine

open Sys2Proof Host

/-! ### Timers that have come to their time -/

theorem isDue_iff {now : Nat} {timer : Option Nat} : isDue now timer = true ↔ ∃ t, timer = some t ∧ t ≤ now := by
  cases timer <;> simp [isDue]

theorem CycleEngine.isDue_deadline_iff {now : Nat} {e : CycleEngine} :
    isDue now e.deadline = true ↔ ∃ t, e.expected = some t ∧ t + e.inForce.grace ≤ now := by
  cases h : e.expected <;> simp [isDue, CycleEngine.deadline, h]

theorem isDue_answerTimer_iff {now : Nat} {outgoing : Option Outgoing} :
    isDue now (outgoing.bind Outgoing.timer) = true ↔ ∃ o t, outgoing = some o ∧ o.timer = some t ∧ t ≤ now := by
  cases outgoing <;> simp [isDue_iff]

/-- The expiries are those of the timers that have come to their time, and no other command. -/
theorem State.mem_expiries {s : State} {c : Instr} : c ∈ s.expiries ↔
    (c = .leaderPeriodExpiry ∧ ∃ t, s.ce.periodEnds = some t ∧ t ≤ s.now) ∨
    (c = .followerDeadline ∧ ∃ t, s.ce.expected = some t ∧ t + s.ce.inForce.grace ≤ s.now) ∨
    (c = .bringUpTimerExpiry ∧ ∃ t, s.bp.bringUpEnds = some t ∧ t ≤ s.now) ∨
    (c = .answerTimerExpiry ∧ ∃ o t, s.bp.outgoing = some o ∧ o.timer = some t ∧ t ≤ s.now) ∨
    (c = .helloTimerExpiry ∧ ∃ t, s.bp.helloEnds = some t ∧ t ≤ s.now) := by
  simp only [State.expiries, List.mem_append, List.mem_ite_nil_right, List.mem_singleton,
    isDue_iff (timer := s.ce.periodEnds), CycleEngine.isDue_deadline_iff, isDue_iff (timer := s.bp.bringUpEnds),
    isDue_answerTimer_iff, isDue_iff (timer := s.bp.helloEnds), or_assoc, and_comm]

/-! ### The tick -/

theorem step_of_empty_queue {s : State} (empty : s.pending = []) : step s = .next s.tick := by
  simp only [step, empty]

theorem State.tick_faulted {s : State} (faulted : s.fn = .faulted) : s.tick = s := if_pos faulted

theorem State.tick_eq {s : State} (running : s.fn ≠ .faulted) :
    s.tick = { s with now := s.now + 1, pending := State.expiries { s with now := s.now + 1 } } := if_neg running

/-- Settles O2: the tick moves the timebase on by 1 µs, and its commands are the expiries at the new time. -/
theorem emptyQueueLetsTimePass : Obligations.EmptyQueueLetsTimePass := by
  intro s empty
  rw [step_of_empty_queue empty]
  refine ⟨fun faulted => ?_, fun running => ⟨State.expiries { s with now := s.now + 1 }, ?_, fun c => ?_⟩⟩
  · rw [State.tick_faulted faulted]
  · rw [State.tick_eq running]
  · exact State.mem_expiries

end Sys2Proof.Machine
end

section
/-! SUPPORT. The Cycle Engine's own events: a marker, an echo, the leader's period timer and the follower's deadline
(R96 to R106, R141). -/

namespace Sys2Proof.Machine

open Sys2Proof Host

/-- With the signal there, a frame that is heard acts (R146). -/
theorem State.event_hear {s : State} (effect : State → State) (running : s.fn ≠ .faulted) (heard : s.lsig = true) :
    s.event (State.hear effect) = (effect s).settle := by
  rw [State.event_eq running, State.hear, if_pos heard]

/-! ### CYCLE_START -/

section

variable {s : State} {m : CycleNum}

theorem exec_cycleStart (m : CycleNum) (running : s.fn ≠ .faulted) (heard : s.lsig = true) :
    exec (.cycleStart m) s = .next (s.markerArrives m).settle :=
  congrArg Outcome.next (State.event_hear _ running heard)

/-- A leader, and a part with the link DOWN or CALLING, takes no marker (R98, R99, R141). -/
theorem State.markerArrives_ignored (ignored : s.ce.role ≠ some .follower ∨ s.bp.link = .down ∨ s.bp.link = .calling) :
    s.markerArrives m = s := by
  unfold State.markerArrives
  split
  · next follower =>
    rcases ignored with other | down | calling
    · exact absurd follower other
    · simp only [down]
    · simp only [calling]
  · rfl

theorem State.markerArrives_up (follower : s.ce.role = some .follower) (up : s.bp.link = .up)
    (marked : s.ce.firstMarker = false) : s.markerArrives m = s.markerInUp m := by
  simp [State.markerArrives, follower, up, marked]

theorem State.markerArrives_exchanging {x : Incoming} (follower : s.ce.role = some .follower)
    (exchanging : s.bp.link = .exchanging) (incoming : s.bp.incoming = some x) : s.markerArrives m =
      if s.ce.firstMarker = true ∧ x.done = true then (s.withDue (.cycleEcho m)).reachUp m else s := by
  simp [State.markerArrives, follower, exchanging, incoming, State.withDue]

/-- The follower re-timed by a marker that arrives now, with the marker's echo due (R101, R104). -/
def State.retimed (s : State) (m : CycleNum) : State :=
  State.withDue { s with ce := { s.ce with
    sync := .locked, coasting := 0, expected := some (s.now + s.ce.inForce.us) } } (.cycleEcho m)

theorem State.markerInUp_eq (m : CycleNum) (s : State) : s.markerInUp m =
    if m = s.ce.cycle + 1 then (s.retimed m).startCycle m
    else if s.ce.sync = .coasting ∧ m = s.ce.cycle then s.retimed m
    else ((s.retimed m).withEvent none (.cycleSlip s.ce.cycle m)).startCycle m := rfl

/-- The marker of the cycle under way is not that of the next, at the wrap of the number too (R95). -/
theorem CycleNum.ne_succ (n : CycleNum) : n ≠ n + 1 := by bv_omega

end

/-- Settles O41: the link state and the first-marker flag decide whether a marker acts, and the number it carries which
row of R101 applies. -/
theorem cycleStartFollowsTheMarker : Obligations.CycleStartFollowsTheMarker := by
  intro s m fn heard
  have arrives := exec_cycleStart m (FnState.ne_faulted (.inl fn)) heard
  refine ⟨fun ignored => ?_, fun follower up marked => ?_, fun follower exchanging x incoming => ?_⟩
  · rw [arrives, State.markerArrives_ignored ignored]
  · rw [arrives, State.markerArrives_up follower up marked, State.markerInUp_eq]
    refine ⟨fun next => ?_, fun coasting again => ?_, fun other realigned => ?_⟩
    · rw [if_pos next]
      rfl
    · rw [if_neg (again ▸ CycleNum.ne_succ m), if_pos ⟨coasting, again⟩]
      rfl
    · rw [if_neg other, if_neg (not_and_or.mpr realigned)]
      rfl
  · rw [arrives, State.markerArrives_exchanging follower exchanging incoming]
    refine ⟨fun first done => ?_, fun waits => ?_⟩
    · rw [if_pos ⟨first, done⟩]
    · rw [if_neg]
      rintro ⟨first, done⟩
      simp [first, done] at waits

/-! ### CYCLE_ECHO -/

section

variable {s : State} {m : CycleNum}

theorem exec_cycleEcho (m : CycleNum) (running : s.fn ≠ .faulted) (heard : s.lsig = true) :
    exec (.cycleEcho m) s = .next (s.echoArrives m).settle :=
  congrArg Outcome.next (State.event_hear _ running heard)

theorem State.echoArrives_current (leader : s.ce.role = some .leader) (up : s.bp.link = .up)
    (current : m = s.ce.cycle) : s.echoArrives m = { s with ce := { s.ce with echoSeen := some true } } :=
  if_pos ⟨leader, up, current⟩

theorem State.echoArrives_ignored (ignored : s.ce.role ≠ some .leader ∨ s.bp.link ≠ .up ∨ m ≠ s.ce.cycle) :
    s.echoArrives m = s := if_neg (by simpa only [not_and_or] using ignored)

/-! ### Expiries of the engine's timers -/

/-- An expiry is void in the other role, outside UP and before its time (R97, R102; notes/assumptions/7.md). -/
theorem State.not_acts_of_void {role : Role} {time : Nat}
    (void : s.ce.role ≠ some role ∨ s.bp.link ≠ .up ∨ s.now < time) :
    ¬(time ≤ s.now ∧ s.ce.role = some role ∧ s.bp.link = .up) := by
  rintro ⟨come, same, up⟩
  rcases void with other | down | early
  · exact other same
  · exact down up
  · exact absurd come (Nat.not_le.mpr early)

/-! ### The leader's period timer -/

theorem exec_leaderPeriodExpiry (running : s.fn ≠ .faulted) :
    exec .leaderPeriodExpiry s = .next s.periodExpires.settle :=
  congrArg Outcome.next (State.event_eq running _)

theorem State.periodExpires_void
    (void : s.ce.role ≠ some .leader ∨ s.bp.link ≠ .up ∨ ∀ t, s.ce.periodEnds = some t → s.now < t) :
    s.periodExpires = s := by
  unfold State.periodExpires
  split
  · next t runs => exact if_neg (State.not_acts_of_void (void.imp_right (·.imp_right fun early => early t runs)))
  · rfl

/-- The leader once the cycle that ends has been judged, its period timer started anew from its expiry at `t` (R97). -/
def State.judged (s : State) (t misses : Nat) (seen : Option Bool) : State :=
  { s with ce := { s.ce with echoMiss := misses, echoSeen := seen, periodEnds := some (t + s.ce.inForce.us) } }

/-- The misses in a row, the cycle that ends counted (R97). -/
def CycleEngine.missesNow (e : CycleEngine) : Nat := if e.echoSeen = some true then 0 else e.echoMiss + 1

theorem CycleEngine.missesNow_seen {e : CycleEngine} (seen : e.echoSeen = some true) : e.missesNow = 0 := if_pos seen

theorem CycleEngine.missesNow_missed {e : CycleEngine} (missed : e.echoSeen = some false) :
    e.missesNow = e.echoMiss + 1 := if_neg (by simp [missed])

theorem State.periodExpires_due {t : Nat} (leader : s.ce.role = some .leader) (up : s.bp.link = .up)
    (runs : s.ce.periodEnds = some t) (come : t ≤ s.now) : s.periodExpires =
      if 16 ≤ s.ce.missesNow then (s.judged t s.ce.missesNow s.ce.echoSeen).leaveUp .peerSilent
      else (s.judged t s.ce.missesNow (some false)).startCycle (s.ce.cycle + 1) := by
  unfold State.periodExpires
  simp only [runs]
  exact if_pos ⟨come, leader, up⟩

end

/-- Settles O43: an echo of the current number is noted, and an expiry that has come counts the misses in a row against
the sixteenth. -/
theorem leaderJudgesCyclesByTheirEchoes : Obligations.LeaderJudgesCyclesByTheirEchoes := by
  intro s fn
  have running : s.fn ≠ .faulted := FnState.ne_faulted (.inl fn)
  refine ⟨fun m heard => ⟨fun leader up current => ?_, fun ignored => ?_⟩, fun void => ?_,
    fun t leader up runs come => ?_⟩
  · rw [exec_cycleEcho m running heard, State.echoArrives_current leader up current]
  · rw [exec_cycleEcho m running heard, State.echoArrives_ignored ignored]
  · rw [exec_leaderPeriodExpiry running, State.periodExpires_void void]
  · rw [exec_leaderPeriodExpiry running, State.periodExpires_due leader up runs come]
    refine ⟨fun seen => ?_, fun missed few => ?_, fun missed last => ?_⟩
    · rw [CycleEngine.missesNow_seen seen, if_neg (by omega)]
      rfl
    · rw [CycleEngine.missesNow_missed missed, if_neg (by omega)]
      rfl
    · rw [CycleEngine.missesNow_missed missed, last, if_pos (by omega), missed]
      rfl

/-! ### The follower's deadline -/

section

variable {s : State}

theorem exec_followerDeadline (running : s.fn ≠ .faulted) :
    exec .followerDeadline s = .next s.deadlinePasses.settle :=
  congrArg Outcome.next (State.event_eq running _)

theorem State.deadlinePasses_void (void : s.ce.role ≠ some .follower ∨ s.bp.link ≠ .up ∨
      ∀ t, s.ce.expected = some t → s.now < t + s.ce.inForce.grace) : s.deadlinePasses = s := by
  unfold State.deadlinePasses
  split
  · next t expected =>
    exact if_neg (State.not_acts_of_void (void.imp_right (·.imp_right fun early => early t expected)))
  · rfl

/-- The follower that coasts by one cycle more from the expected marker time `t`, on the leader's grid (R102). -/
def State.coasts (s : State) (t : Nat) : State :=
  { s with ce := { s.ce with
    sync := .coasting, coasting := s.ce.coasting + 1, expected := some (t + s.ce.inForce.us) } }

theorem State.deadlinePasses_due {t : Nat} (follower : s.ce.role = some .follower) (up : s.bp.link = .up)
    (expected : s.ce.expected = some t) (come : t + s.ce.inForce.grace ≤ s.now) : s.deadlinePasses =
      if s.ce.sync = .coasting ∧ 7 ≤ s.ce.coasting then
        State.leaveUp .syncLost { s with ce := { s.ce with sync := .lost } }
      else (s.coasts t).startCycle (s.ce.cycle + 1) := by
  unfold State.deadlinePasses
  simp only [expected]
  exact if_pos ⟨come, follower, up⟩

/-- The loss of sync stops the engine with its sync state and coasting count as they stand (R103, R106). -/
theorem CycleEngine.stop_syncLost (e : CycleEngine) : e.stop .syncLost =
    { e with echoSeen := none, expected := none, periodEnds := none, echoMiss := 0 } := rfl

end

/-- Settles O44: a deadline that has come coasts on, or with the count at 7 takes the link down. -/
theorem followerCoastsOrLosesSync : Obligations.FollowerCoastsOrLosesSync := by
  refine ⟨fun s fn void => ?_, fun s t fn follower up expected come => ?_⟩
  · rw [exec_followerDeadline (FnState.ne_faulted (.inl fn)), State.deadlinePasses_void void]
  · rw [exec_followerDeadline (FnState.ne_faulted (.inl fn)), State.deadlinePasses_due follower up expected come]
    refine ⟨fun coasts => ?_, fun coasting seven => ?_⟩
    · have notYet : ¬(s.ce.sync = .coasting ∧ 7 ≤ s.ce.coasting) := by
        rintro ⟨coasting, many⟩
        rcases coasts with ⟨-, zero⟩ | ⟨-, few⟩ <;> omega
      rw [if_neg notYet]
      rfl
    · rw [if_pos ⟨coasting, seven.ge⟩]
      refine ⟨_, rfl, ?_⟩
      simp only [State.leaveUp_bp, State.leaveUp_ce, CycleEngine.stop_syncLost, seven, and_self]

end Sys2Proof.Machine
end

section
/-! SUPPORT. How the end of a DATA frame is decided (R124, R125, R127). -/

namespace Sys2Proof.Machine

open Sys2Proof Host

/-! ### Changes of the body -/

theorem State.onBody_of_eq {s : State} {f : Body → Body} (same : f s.body = s.body) : s.onBody f = s := by
  rw [State.onBody, same]

theorem State.onBody_congr {s : State} {f g : Body → Body} (same : f s.body = g s.body) : s.onBody f = s.onBody g := by
  rw [State.onBody, same, State.onBody]

theorem State.onBody_modify {s : State} {i : StreamId} {st : Stream} (opened : s.body.stream i = some st)
    (f : Stream → Stream) : s.onBody (Body.modify i f) = s.withStream i st (f st) :=
  State.onBody_congr (Body.modify_some opened f)

theorem State.receives.running {s : State} (receives : s.receives) : s.fn ≠ .faulted :=
  FnState.ne_faulted (.inl receives.1)

/-! ### The end of a frame, as an event -/

section

variable {s : State} {r : Reception}

/-- In UP the end of a frame of the class that is arriving is decided (R111). -/
theorem State.dataEnds_decided {cls : StreamClass} {rest : List Byte} {decision : Reception → List Byte → Body → Body}
    (receives : s.receives) (rx : s.body.rx = some r) (same : r.header.cls = cls) (fits : r.header.length ≤ 1024) :
    s.dataEnds cls rest decision = s.onBody (decision r (fit r.header.length (r.arrived ++ rest))) := by
  obtain ⟨-, heard, up⟩ := receives
  simp only [State.dataEnds, rx, if_pos same]
  exact if_pos ⟨heard, (State.isUp_iff s).mpr up, fits⟩

theorem exec_dataBestEffortEnd (rest : List Byte) (receives : s.receives) (rx : s.body.rx = some r)
    (same : r.header.cls = .bestEffort) (fits : r.header.length ≤ 1024) : exec (.dataBestEffortEnd rest) s =
      .next (s.onBody (Body.bestEffortEnds s.ce.cycle r (fit r.header.length (r.arrived ++ rest)))).settle := by
  refine congrArg Outcome.next ?_
  rw [State.event_eq receives.running, State.dataEnds_decided receives rx same fits]

theorem exec_dataScheduledEnd (rest : List Byte) (receives : s.receives) (rx : s.body.rx = some r)
    (same : r.header.cls = .scheduled) (fits : r.header.length ≤ 1024) : exec (.dataScheduledEnd rest) s =
      .next (s.onBody (Body.scheduledEnds s.ce.cycle r (fit r.header.length (r.arrived ++ rest)))).settle := by
  refine congrArg Outcome.next ?_
  rw [State.event_eq receives.running, State.dataEnds_decided receives rx same fits]

end

/-! ### The table of R124 -/

section

variable {b : Body} {st : Stream} {d : DataHeader} {claim : Option Nat} {i : StreamId}

theorem Stream.receivesClass_iff {cls : StreamClass} :
    st.receivesClass cls = true ↔ st.dir = .inbound ∧ st.cls = cls := by
  simp [Stream.receivesClass]

theorem Body.awaitsOpened_iff : b.awaitsOpened i = true ↔ ∃ n ∈ b.lt.notices, n.stream = i ∧ n.closed = false := by
  simp [Body.awaitsOpened]

theorem Body.decide_closed (closed : b.stream d.stream = none) : b.decide d claim = .gone := by
  simp only [Body.decide, closed]

/-- The rows of the table for an open stream, the first that applies. -/
theorem Body.decide_open (opened : b.stream d.stream = some st) : b.decide d claim =
    if ¬(st.dir = .inbound ∧ st.cls = .bestEffort) ∨ st.maxLen < d.length then .gone
    else if st.state ≠ .active ∨ (∃ n ∈ b.lt.notices, n.stream = d.stream ∧ n.closed = false) ∨ claim = none then .defer
    else if st.seq.expects d.bit then .keep
    else .duplicate := by
  simp only [Body.decide, opened, ← Stream.receivesClass_iff, ← Body.awaitsOpened_iff]
  by_cases suited : st.receivesClass .bestEffort = true
  · by_cases short : st.maxLen < d.length
    · simp [suited, short]
    · by_cases active : st.state = .active
      · by_cases waits : b.awaitsOpened d.stream = true
        · simp [suited, short, active, waits]
        · cases claim <;> simp [suited, short, active, waits]
      · simp [suited, short, active]
  · simp [suited]

/-- The answer that goes with each decision (R124). -/
def Decision.answer (d : DataHeader) : Decision → ControlFrame
  | .gone => .gone d.stream
  | .defer => .defer d.stream d.bit
  | .duplicate => .accept d.stream d.bit
  | .keep => .accept d.stream d.bit

/-- A frame that is not kept frees the buffer it claimed and is answered. -/
theorem Body.bestEffortEnds_dropped {r : Reception} {decision : Decision} (cycle : CycleNum) (data : List Byte)
    (decided : b.decide r.header r.claim = decision) (dropped : decision ≠ .keep) :
    b.bestEffortEnds cycle r data = b.undoClaim.addDue (decision.answer r.header) := by
  cases decision with
  | keep => exact absurd rfl dropped
  | _ => simp only [Body.bestEffortEnds, decided, Decision.answer]

/-- A frame that is kept fills the buffer it claimed, toggles the expected bit and is accepted. -/
theorem Body.bestEffortEnds_kept {r : Reception} {k : Nat} {expected : Bool} (cycle : CycleNum) (data : List Byte)
    (opened : b.stream r.header.stream = some st) (claimed : r.claim = some k) (seq : st.seq = .bestEffortIn expected)
    (decided : b.decide r.header r.claim = .keep) : b.bestEffortEnds cycle r data =
      (({ b with rx := none } : Body).put r.header.stream st { st with
        buffers := st.buffers.set k (.held data r.header.mark (.bit r.header.bit) cycle false)
        queue := st.queue ++ [k], seq := .bestEffortIn (!r.header.bit) }).addDue
          (.accept r.header.stream r.header.bit) := by
  have opened' : ({ b with rx := none } : Body).stream r.header.stream = some st := opened
  rw [claimed] at decided
  simp only [Body.bestEffortEnds, claimed, decided, Body.modify_some opened', Stream.keep, seq]

end

/-- Settles O35: the rows of the table decide, and what is decided is carried out. -/
theorem bestEffortFramesAreDecided : Obligations.BestEffortFramesAreDecided := by
  intro s r rest receives rx same fits i c data answered suited
  have ends := exec_dataBestEffortEnd rest receives rx same fits
  have dropped : ∀ decision, s.body.decide r.header r.claim = decision → decision ≠ .keep →
      answered (decision.answer r.header) := by
    intro decision decided not_kept
    show exec c s = _
    rw [ends, State.onBody, Body.bestEffortEnds_dropped _ _ decided not_kept]
    rfl
  refine ⟨fun closed => dropped .gone (Body.decide_closed closed) nofun, fun st opened => ?_⟩
  have table := Body.decide_open (claim := r.claim) opened
  refine ⟨fun unsuited => dropped .gone (table.trans (if_pos (.inl unsuited))) nofun,
    fun _ short => dropped .gone (table.trans (if_pos (.inr short))) nofun, fun suits takes => ?_⟩
  rw [if_neg (not_or.mpr ⟨not_not.mpr suits, Nat.not_lt.mpr takes⟩)] at table
  refine ⟨fun inactive => dropped .defer (table.trans (if_pos (.inl inactive))) nofun, fun active =>
    ⟨fun awaits => dropped .defer (table.trans (if_pos (.inr (.inl awaits)))) nofun, fun none_awaits =>
      ⟨fun unclaimed => dropped .defer (table.trans (if_pos (.inr (.inr unclaimed)))) nofun,
        fun k expected claimed seq => ?_⟩⟩⟩
  have undeferred : ¬(st.state ≠ .active ∨ (∃ n ∈ s.body.lt.notices, n.stream = i ∧ n.closed = false) ∨
      r.claim = none) := by
    rintro (inactive | ⟨n, queued, mine, opens⟩ | unclaimed)
    · exact inactive active
    · exact absurd ((none_awaits n queued mine).symm.trans opens) nofun
    · exact absurd (claimed.symm.trans unclaimed) nofun
  rw [if_neg undeferred, seq] at table
  refine ⟨fun other => dropped .duplicate (table.trans (if_neg (by simpa [SeqState.expects] using other))) nofun,
    fun next => ?_⟩
  have kept := table.trans (if_pos (by simpa [SeqState.expects] using next))
  rw [ends, State.onBody, Body.bestEffortEnds_kept _ _ opened claimed seq kept, next]
  rfl

/-! ### The table of R125 -/

section

variable {b : Body} {st : Stream} {r : Reception}

theorem Stream.setGap_eq {expected : Byte} {gap first : Bool} (seq : st.seq = .scheduledIn expected gap first) :
    st.setGap = { st with seq := .scheduledIn expected true first } := by
  simp only [Stream.setGap, seq]

/-- A frame for a stream that does not receive the class is dropped with no event (R125, row 1). -/
theorem Body.scheduledEnds_unsuited (cycle : CycleNum) (data : List Byte)
    (unsuited : ∀ st, b.stream r.header.stream = some st → ¬(st.dir = .inbound ∧ st.cls = .scheduled)) :
    b.scheduledEnds cycle r data = b.undoClaim := by
  dsimp only [Body.scheduledEnds]
  split
  · rfl
  · next st opened => exact if_pos (by simpa [← Stream.receivesClass_iff] using unsuited st opened)

/-- A frame that finds no buffer, or that the stream does not take, leaves a pending gap and raises OVERRUN (R125,
row 2). -/
theorem Body.scheduledEnds_missed (cycle : CycleNum) (data : List Byte) (opened : b.stream r.header.stream = some st)
    (suited : st.dir = .inbound ∧ st.cls = .scheduled)
    (missed : r.claim = none ∨ st.maxLen < r.header.length ∨ st.perCycle ≤ r.header.slot.toNat ∨ st.state ≠ .active) :
    b.scheduledEnds cycle r data = (b.undoClaim.modify r.header.stream Stream.setGap).raise (some r.header.stream)
      (.scheduleMiss true) := by
  simp only [Body.scheduledEnds, opened, Stream.receivesClass_iff.mpr suited, Bool.not_true, if_neg Bool.false_ne_true]
  split
  · next k claimed =>
    refine if_neg ?_
    rintro ⟨takes, slot, active⟩
    rcases missed with unclaimed | short | late | inactive
    · exact absurd (claimed.symm.trans unclaimed) nofun
    · omega
    · omega
    · exact inactive active
  · rfl

/-- A frame that is kept takes the pending gap, or the break in the sequence, as its gap mark (R76; R125, row 3). -/
theorem Body.scheduledEnds_kept {k : Nat} {expected : Byte} {gap first : Bool} (cycle : CycleNum) (data : List Byte)
    (opened : b.stream r.header.stream = some st) (suited : st.dir = .inbound ∧ st.cls = .scheduled)
    (claimed : r.claim = some k) (seq : st.seq = .scheduledIn expected gap first)
    (takes : r.header.length ≤ st.maxLen ∧ r.header.slot.toNat < st.perCycle ∧ st.state = .active) :
    b.scheduledEnds cycle r data = ({ b with rx := none } : Body).put r.header.stream st { st with
      buffers := st.buffers.set k (.held data r.header.mark (.counter r.header.counter) cycle
        (gap || (!first && r.header.counter != expected)))
      queue := st.queue ++ [k], seq := .scheduledIn (r.header.counter + 1) false false } := by
  simp only [Body.scheduledEnds, opened, Stream.receivesClass_iff.mpr suited, Bool.not_true, if_neg Bool.false_ne_true,
    claimed, if_pos takes, Stream.keep, seq, SeqState.arrive]

end

/-- Settles O36: a frame is unsuited, missed or kept. -/
theorem scheduledFramesAreDecided : Obligations.ScheduledFramesAreDecided := by
  intro s r rest receives rx same fits i c data
  have ends := exec_dataScheduledEnd rest receives rx same fits
  refine ⟨fun closed => ?_, fun st opened => ⟨fun unsuited => ?_, fun dir cls expected gap first seq =>
    ⟨fun unclaimed => ?_, fun k claimed untaken => ?_, fun k claimed short slot active =>
      ⟨gap || (!first && r.header.counter != expected), by simp, ?_⟩⟩⟩⟩
  · rw [ends, State.onBody, Body.scheduledEnds_unsuited _ _ fun st opened => absurd (closed.symm.trans opened) nofun]
    rfl
  · rw [ends, State.onBody, Body.scheduledEnds_unsuited]
    · rfl
    · intro st' opened' ⟨dir, cls⟩
      obtain rfl : st' = st := Option.some.inj (opened'.symm.trans opened)
      simp [dir, cls] at unsuited
  · have opened' : ({ s.body with rx := none } : Body).stream r.header.stream = some st := opened
    rw [ends, State.onBody, Body.scheduledEnds_missed _ _ opened ⟨dir, cls⟩ (.inl unclaimed),
      Body.undoClaim_unclaimed rx unclaimed, Body.modify_some opened', Stream.setGap_eq seq]
    rfl
  · rw [ends, State.onBody, Body.scheduledEnds_missed _ _ opened ⟨dir, cls⟩ (.inr untaken)]
    rfl
  · rw [ends, State.onBody, Body.scheduledEnds_kept _ _ opened ⟨dir, cls⟩ claimed seq ⟨short, slot, active⟩]
    rfl

end Sys2Proof.Machine
end

section
/-! SUPPORT. The SENT packet of a stream and what an answer or a notice does to it (R11, R36, R121 to R123, R128,
R129). -/

namespace Sys2Proof.Machine

open Sys2Proof Host

/-! ### Frames acted on in UP -/

section

variable {s : State} {i : StreamId}

/-- In UP a frame that is heard acts on the body (R111). -/
theorem State.event_hearUp (effect : Body → Body) (receives : s.receives) :
    s.event (State.hearUp effect) = (s.onBody effect).settle := by
  obtain ⟨-, heard, up⟩ := id receives
  rw [State.event, if_neg receives.running, State.hearUp, State.hear, if_pos heard, if_pos ((State.isUp_iff s).mpr up)]

theorem exec_accept (i : StreamId) (bit : Bool) (receives : s.receives) :
    exec (.accept i bit) s = .next (s.onBody (Body.modify i (Stream.accepted bit s.ce.cycle))).settle :=
  congrArg Outcome.next (State.event_hearUp _ receives)

theorem exec_defer (i : StreamId) (bit : Bool) (receives : s.receives) :
    exec (.defer i bit) s = .next (s.onBody (Body.modify i (Stream.deferred bit))).settle :=
  congrArg Outcome.next (State.event_hearUp _ receives)

theorem exec_gone (i : StreamId) (receives : s.receives) :
    exec (.gone i) s = .next (s.onBody (Body.goneActs i)).settle :=
  congrArg Outcome.next (State.event_hearUp _ receives)

theorem exec_notice (i : StreamId) (kind : Byte) (receives : s.receives) :
    exec (.notice i kind) s = .next ((s.withDue (.noticeAck i kind)).onBody (Body.noticeActs i kind)).settle :=
  congrArg Outcome.next (State.event_hearUp _ receives)

theorem exec_noticeAck (i : StreamId) (kind : Byte) (receives : s.receives) :
    exec (.noticeAck i kind) s = .next (s.onBody (Body.noticeAcked i kind)).settle :=
  congrArg Outcome.next (State.event_hearUp _ receives)

theorem State.onBody_modify_none (closed : s.body.stream i = none) (f : Stream → Stream) :
    s.onBody (Body.modify i f) = s := State.onBody_of_eq (Body.modify_none closed f)

end

/-! ### The SENT packet -/

section

variable {st : Stream} {k : Nat} {data : List Byte} {mark b : Bool} {answer : AnswerCondition}
  {next flight : Bool} {n : Nat}

theorem Stream.sent?_of_none (none_sent : st.sentIndex = none) : st.sent? = none := by
  simp only [Stream.sent?, none_sent]

theorem Stream.sent?_eq (found : st.sentIndex = some k) (sent : st.buffer k = .sent data mark b answer) :
    st.sent? = some (k, b) := by
  simp only [Stream.sent?, found, sent]

/-- The SENT buffer stays the first SENT one when its answer condition changes. -/
theorem Stream.sentIndex_of_set {st' : Stream} {b' : Buffer} (found : st.sentIndex = some k) (sent : b'.isSent = true)
    (set : st'.buffers = st.buffers.set k b') : st'.sentIndex = some k := by
  obtain ⟨hk, -, before⟩ := List.findIdx?_eq_some_iff_getElem.mp found
  rw [Stream.sentIndex, set]
  refine List.findIdx?_eq_some_iff_getElem.mpr ⟨by simpa using hk, by simpa using sent, fun j less => ?_⟩
  simpa [Nat.ne_of_gt less] using before j less

theorem Stream.buffer_of_set_sent {st' : Stream} {b' : Buffer} (found : st.sentIndex = some k)
    (set : st'.buffers = st.buffers.set k b') : st'.buffer = Function.update st.buffer k b' :=
  Stream.buffer_of_set set (Stream.buffer_of_findIdx? found).1

/-! ### ACCEPT and DEFER -/

theorem Stream.accepted_of_none (bit : Bool) (cycle : CycleNum) (none_sent : st.sentIndex = none) :
    st.accepted bit cycle = st := by
  simp only [Stream.accepted, Stream.sent?_of_none none_sent]

/-- An ACCEPT confirms the packet whose bit it carries and that is still awaited (R121). -/
theorem Stream.accepted_eq (bit : Bool) (cycle : CycleNum) (found : st.sentIndex = some k)
    (sent : st.buffer k = .sent data mark b answer) (seq : st.seq = .bestEffortOut next flight n) :
    st.accepted bit cycle =
      if b = bit ∧ flight = true then { st.confirm k cycle with seq := .bestEffortOut (!next) false 0 } else st := by
  simp only [Stream.accepted, Stream.sent?_eq found sent, seq]

/-- A confirmed packet frees its buffer, and its bytes and mark are credited (R35, R36, R58). -/
theorem Stream.confirm_eq (k : Nat) (cycle : CycleNum) (st : Stream) : st.confirm k cycle = { st with
    buffers := st.buffers.set k .free, queue := st.queue.filter (· != k)
    sends := List.zipWith (stampFinished cycle) st.sends
      (if (st.buffer k).mark then creditMark (creditBytes (st.buffer k).count st.sends)
        else creditBytes (st.buffer k).count st.sends) } := rfl

theorem Stream.deferred_of_none (bit : Bool) (none_sent : st.sentIndex = none) : st.deferred bit = st := by
  simp only [Stream.deferred, Stream.sent?_of_none none_sent]

/-- The stream whose SENT packet of buffer `k` has been put off, awaited still or not (R122). -/
def Stream.putOff (k : Nat) (data : List Byte) (mark b next awaited : Bool) (st : Stream) : Stream :=
  { st with buffers := st.buffers.set k (.sent data mark b .deferred), seq := .bestEffortOut next awaited 0 }

theorem Stream.deferred_eq (bit : Bool) (found : st.sentIndex = some k) (sent : st.buffer k = .sent data mark b answer)
    (seq : st.seq = .bestEffortOut next flight n) : st.deferred bit =
      if b = bit then
        st.putOff k data mark b next (flight && st.state != .flushing && st.state != .halting)
      else st := by
  simp only [Stream.deferred, Stream.sent?_eq found sent, seq, sent, Buffer.setAnswer, Stream.putOff, Stream.setBuffer]

/-- At the next cycle start a packet put off is DUE, and nothing else changes (R120). -/
theorem Stream.advanceAnswer_putOff (awaited : Bool) (found : st.sentIndex = some k) :
    (st.putOff k data mark b next awaited).advanceAnswer =
      (st.putOff k data mark b next awaited).setBuffer k (.sent data mark b .due) := by
  have found' : (st.putOff k data mark b next awaited).sentIndex = some k := Stream.sentIndex_of_set found rfl rfl
  have put_off : (st.putOff k data mark b next awaited).buffer k = .sent data mark b .deferred := by
    rw [Stream.buffer_of_set_sent (b' := .sent data mark b .deferred) found rfl, Function.update_self]
  simp only [Stream.advanceAnswer, found', put_off]

theorem Stream.putOff_due_buffer (awaited : Bool) (found : st.sentIndex = some k) (j : Nat) :
    (st.putOff k data mark b next awaited).advanceAnswer.buffer j =
      if j = k then .sent data mark b .due else st.buffer j := by
  have set : (st.putOff k data mark b next awaited).advanceAnswer.buffers =
      st.buffers.set k (.sent data mark b .due) := by
    rw [Stream.advanceAnswer_putOff awaited found]
    exact List.set_set ..
  rw [Stream.buffer_of_set_sent found set, Function.update_apply]

/-- A packet that is awaited no longer makes its stream not eligible (R11, R18; notes/assumptions/21.md). -/
theorem Body.eligible_of_not_awaited {i : StreamId} (body : Body) (idle : st.seq.inFlight = false)
    (stops : st.mayRead = false) : body.eligible i st = false := by
  rw [Body.eligible, idle, stops]
  split <;> simp

end

/-! ### The packet that is abandoned -/

section

variable {st : Stream} {k : Nat} {data : List Byte} {mark b : Bool} {answer : AnswerCondition}
  {next flight : Bool} {n : Nat}

theorem Stream.mayHalt_iff : st.mayHalt = true ↔
    (st.state = .active ∨ st.state = .flushing ∨ st.state = .closing) ∧ st.cause = none := by
  simp [Stream.mayHalt, or_assoc]

theorem Stream.not_mayHalt (stops : st.state = .halting ∨ st.state = .halted ∨ st.state = .aborting ∨ st.cause ≠ none) :
    ¬st.mayHalt = true := by
  rw [Stream.mayHalt_iff]
  rintro ⟨state, uncaused⟩
  rcases stops with halting | halted | aborting | caused
  · simp [halting] at state
  · simp [halted] at state
  · simp [aborting] at state
  · exact caused uncaused

/-- Of a list with one element that `p` picks, that element alone is filtered. -/
theorem filter_eq_singleton {α : Type} {p : α → Bool} {l : List α} {k : Nat} {x : α} (at_k : l[k]? = some x)
    (picked : p x = true) (only : ∀ j y, j ≠ k → l[j]? = some y → p y = false) : l.filter p = [x] := by
  induction l generalizing k with
  | nil => cases at_k
  | cons y l ih =>
    cases k with
    | zero =>
      cases at_k
      have rest : l.filter p = [] := by
        refine List.filter_eq_nil_iff.mpr fun z hz => ?_
        obtain ⟨j, hj⟩ := List.mem_iff_getElem?.mp hz
        simp [only (j + 1) z (Nat.succ_ne_zero j) (by simpa using hj)]
      rw [List.filter_cons_of_pos picked, rest]
    | succ k =>
      have head : ¬p y = true := by simp [only 0 y (Nat.zero_ne_add_one k) rfl]
      rw [List.filter_cons_of_neg head]
      exact ih (by simpa using at_k) fun j z other hz => only (j + 1) z (by omega) (by simpa using hz)

theorem Stream.getElem?_of_sent (sent : st.buffer k = .sent data mark b answer) :
    st.buffers[k]? = some (.sent data mark b answer) := by
  have hk : k < st.buffers.length := Stream.lt_of_buffer_ne_free (by rw [sent]; nofun)
  rw [List.getElem?_eq_getElem hk, ← sent]
  simp [Stream.buffer, List.getD_eq_getElem?_getD, hk]

/-- The discard of SENT packets finds the one there is (R31). -/
theorem Stream.discard_sent_eq (sent : st.buffer k = .sent data mark b answer)
    (only : ∀ j, j ≠ k → (st.buffer j).isSent = false) : st.discard Buffer.isSent = { st with
      buffers := st.buffers.set k .free, queue := st.queue.filter (· != k)
      discarded := st.discarded + data.length } := by
  have picks : ∀ j, (st.buffer j).isSent = (j == k) := by
    intro j
    by_cases e : j = k
    · rw [e, sent, beq_self_eq_true]
      rfl
    · rw [only j e, beq_false_of_ne e]
  have buffers : (st.buffers.map fun b => if b.isSent then .free else b) = st.buffers.set k .free := by
    refine List.ext_getElem (by simp) fun j low _ => ?_
    have at_j : st.buffers[j]'(by simpa using low) = st.buffer j := by
      simp [Stream.buffer, List.getD_eq_getElem?_getD, show j < st.buffers.length by simpa using low]
    rw [List.getElem_map, List.getElem_set, at_j, picks]
    exact if_congr (beq_iff_eq.trans eq_comm) rfl rfl
  have queue : (st.queue.filter fun j => !(st.buffer j).isSent) = st.queue.filter (· != k) := by
    simp only [picks, bne]
  have one : st.buffers.filter Buffer.isSent = [.sent data mark b answer] := by
    refine filter_eq_singleton (Stream.getElem?_of_sent sent) rfl fun j y other hy => ?_
    simpa [Stream.buffer, List.getD_eq_getElem?_getD, hy] using only j other
  rw [Stream.discard, buffers, queue, one]
  rfl

theorem Stream.abandon_of_some (found : st.sentIndex = some k) :
    st.abandon = { st.discard Buffer.isSent with seq := st.seq.clearFlight } := by
  rcases st.abandon_cases with ⟨none_sent, -⟩ | ⟨-, e⟩
  · exact absurd (found.symm.trans none_sent) nofun
  · exact e

/-- A halt for such a cause abandons the SENT packet as it begins (R10). -/
theorem Stream.beginHalt_abandons {cause : HaltCause} (abandons : cause.abandons = true) (st : Stream) :
    st.beginHalt cause = { st.abandon with state := .halting, cause := some cause, stage := .waiting } := by
  rw [Stream.beginHalt, abandons, if_pos rfl]

end

/-! ### GONE and NOTICE -/

section

variable {b : Body} {i : StreamId} {st : Stream}

theorem Body.haltOrAbandon_halts (opened : b.stream i = some st) (may : st.mayHalt = true) (cause : HaltCause) :
    b.haltOrAbandon i cause = (b.put i st (st.beginHalt cause)).raise (some i) (.streamHalted cause) := by
  rw [Body.haltOrAbandon_eq opened, if_pos may]

theorem Body.haltOrAbandon_abandons (opened : b.stream i = some st) (halting : st.state = .halting)
    (awaits : st.awaitsAnswer = true) (cause : HaltCause) : b.haltOrAbandon i cause = b.put i st st.abandon := by
  rw [Body.haltOrAbandon_eq opened, if_neg (Stream.not_mayHalt (.inl halting)), if_pos ⟨halting, awaits⟩]

/-- A stream that cannot halt, and awaits no outcome in HALTING, stays as it is. -/
theorem Body.haltOrAbandon_stays (opened : b.stream i = some st) (may_not : ¬st.mayHalt = true)
    (settled : ¬(st.state = .halting ∧ st.awaitsAnswer = true)) (cause : HaltCause) : b.haltOrAbandon i cause = b := by
  rw [Body.haltOrAbandon_eq opened, if_neg may_not, if_neg settled]

theorem Stream.isBestEffortOut_iff : st.isBestEffortOut = true ↔ st.cls = .bestEffort ∧ st.dir = .outbound := by
  simp [Stream.isBestEffortOut]

/-- A best-effort OUT stream with a SENT packet, of which a GONE and a NOTICE(OPENED) speak (R123, R128). -/
theorem Stream.sends_iff : (st.isBestEffortOut = true ∧ st.sentIndex.isSome = true) ↔
    ¬(st.cls = .scheduled ∨ st.dir = .inbound ∨ st.sentIndex = none) := by
  rw [Stream.isBestEffortOut_iff, Option.isSome_iff_ne_none, not_or, not_or, and_assoc]
  refine and_congr ?_ (and_congr ?_ Iff.rfl)
  · cases st.cls <;> simp
  · cases st.dir <;> simp

theorem Body.goneActs_closed (closed : b.stream i = none) : b.goneActs i = b := by
  simp only [Body.goneActs, closed]

theorem Body.goneActs_eq (opened : b.stream i = some st) : b.goneActs i =
    if st.cls = .scheduled ∨ st.dir = .inbound ∨ st.sentIndex = none then b else b.haltOrAbandon i .peerClosed := by
  simp only [Body.goneActs, opened, Stream.sends_iff]
  exact ite_not ..

theorem Body.noticeActs_closed (closed : b.stream i = none) (kind : Byte) : b.noticeActs i kind = b := by
  unfold Body.noticeActs
  simp [closed, Body.haltOrAbandon_none closed]

theorem Body.noticeActs_two (i : StreamId) (b : Body) : b.noticeActs i 2 = b.haltOrAbandon i .peerClosed := rfl

theorem Body.noticeActs_one (opened : b.stream i = some st) : b.noticeActs i 1 =
    (if st.cls = .scheduled ∨ st.dir = .inbound ∨ st.sentIndex = none then b
      else b.haltOrAbandon i .peerClosed).modify i Stream.resetSeq := by
  simp only [Body.noticeActs, opened, Stream.sends_iff, if_true]
  rw [ite_not]

/-- The initial sequence state goes by parameters that stay from the opening on (R2). -/
theorem Stream.initial_of_fixed {st' : Stream} (same : st'.fixed = st.fixed) :
    SeqState.initial st'.dir st'.cls = .initial st.dir st.cls := by
  simp only [Stream.fixed, Prod.mk.injEq] at same
  obtain ⟨dir, cls, -⟩ := same
  rw [dir, cls]

/-- A halt that is decided, or the end of a wait, leaves the stream's parameters. -/
theorem Body.haltOrAbandon_stream (opened : b.stream i = some st) (cause : HaltCause) :
    ∃ st', (b.haltOrAbandon i cause).stream i = some st' ∧ st'.fixed = st.fixed := by
  rw [Body.haltOrAbandon_eq opened]
  split
  · exact ⟨_, Body.put_stream_self .., st.fixed_beginHalt cause⟩
  · split
    · exact ⟨_, Body.put_stream_self .., st.fixed_abandon⟩
    · exact ⟨st, opened, rfl⟩

end

/-! ### The statements -/

/-- Settles O37: the SENT packet is confirmed, abandoned or left, by its bit, its marker and the stream's state. -/
theorem acceptConfirmsAndGoneHalts : Obligations.AcceptConfirmsAndGoneHalts := by
  refine ⟨fun s i bit receives => ⟨fun closed => ?_, fun st opened => ⟨fun none_sent => ?_,
    fun k data mark b answer next flight n found sent seq => ?_⟩⟩,
    fun s i receives => ⟨fun closed => ?_, fun st opened => ⟨fun ignored => ?_,
      fun k data mark b answer next flight n cls dir found sent seq only => ?_⟩⟩⟩
  · rw [exec_accept i bit receives, State.onBody_modify_none closed]
  · rw [exec_accept i bit receives, State.onBody_modify opened, Stream.accepted_of_none bit _ none_sent]
  · rw [exec_accept i bit receives, State.onBody_modify opened, Stream.accepted_eq bit _ found sent seq]
    refine ⟨fun other => ?_, fun same awaited => ?_⟩
    · have ignored : ¬(b = bit ∧ flight = true) := fun ⟨same, awaited⟩ =>
        other.elim (· same) fun given_up => absurd (awaited.symm.trans given_up) nofun
      rw [if_neg ignored]
    · rw [if_pos ⟨same, awaited⟩, Stream.confirm_eq, sent]
      rfl
  · rw [exec_gone i receives, State.onBody_of_eq (Body.goneActs_closed closed)]
  · rw [exec_gone i receives, State.onBody_of_eq ((Body.goneActs_eq opened).trans (if_pos ignored))]
  · intro left
    have acts : s.body.goneActs i = s.body.haltOrAbandon i .peerClosed :=
      (Body.goneActs_eq opened).trans (if_neg (by simp [cls, dir, found]))
    have abandoned : st.abandon = left := by
      rw [Stream.abandon_of_some found, Stream.discard_sent_eq sent only, seq]
      rfl
    rw [exec_gone i receives, State.onBody_congr (g := Body.haltOrAbandon i .peerClosed) acts]
    refine ⟨fun may => ?_, fun halting awaited => ?_, fun halting given_up => ?_⟩
    · rw [State.onBody, Body.haltOrAbandon_halts opened may, Stream.beginHalt_abandons rfl, abandoned]
      rfl
    · have awaits : st.awaitsAnswer = true :=
        st.awaitsAnswer_iff.mpr ⟨by simp [found], next, n, by rw [seq, awaited]⟩
      rw [State.onBody, Body.haltOrAbandon_abandons opened halting awaits, abandoned]
      rfl
    · have settled : ¬(st.state = .halting ∧ st.awaitsAnswer = true) := by
        rintro ⟨-, awaits⟩
        simp [Stream.awaitsAnswer, seq, SeqState.inFlight, given_up] at awaits
      rw [State.onBody_of_eq (Body.haltOrAbandon_stays opened (Stream.not_mayHalt (.inl halting)) settled _)]

/-- Settles O38: a DEFER puts the packet off by its bit, and the stream's state says whether it is awaited still. -/
theorem deferPutsThePacketOff : Obligations.DeferPutsThePacketOff := by
  intro s i bit receives
  refine ⟨fun closed => ?_, fun st opened => ⟨fun none_sent => ?_,
    fun k data mark b answer next flight n found sent seq => ?_⟩⟩
  · rw [exec_defer i bit receives, State.onBody_modify_none closed]
  · rw [exec_defer i bit receives, State.onBody_modify opened, Stream.deferred_of_none bit none_sent]
  · intro put
    rw [exec_defer i bit receives, State.onBody_modify opened, Stream.deferred_eq bit found sent seq]
    refine ⟨fun other => ?_, fun same flushes halts => ?_, fun same stops => ⟨?_, ?_, fun body => ?_⟩,
      fun awaited => Stream.putOff_due_buffer awaited found, fun awaited => ?_⟩
    · rw [if_neg other]
    · have awaited : (flight && st.state != .flushing && st.state != .halting) = flight := by
        rw [bne_iff_ne.mpr flushes, bne_iff_ne.mpr halts, Bool.and_true, Bool.and_true]
      rw [if_pos same, awaited]
      rfl
    · have given_up : (flight && st.state != .flushing && st.state != .halting) = false := by
        rcases stops with e | e <;> rw [e] <;> simp
      rw [if_pos same, given_up]
      rfl
    · exact Bool.and_false _
    · have stopped : st.mayRead = false := by
        rw [Bool.eq_false_iff, Ne, Stream.mayRead_iff]
        rcases stops with e | e <;> rw [e] <;> simp
      have due := Stream.advanceAnswer_putOff (data := data) (mark := mark) (b := b) (next := next) false found
      show body.eligible i (st.putOff k data mark b next false).advanceAnswer = false
      rw [due]
      exact Body.eligible_of_not_awaited body rfl stopped
    · show (st.putOff k data mark b next awaited).advanceAnswer.seq = _
      rw [Stream.advanceAnswer_putOff awaited found]
      rfl

/-- Settles O39: a NOTICE is a halt, the end of a wait or neither, and a NOTICE(OPENED) resets the sequence state after
it. -/
theorem noticeActsOnTheStream : Obligations.NoticeActsOnTheStream := by
  intro s i receives answered initial
  have initial_eq : ∀ st, initial st = .initial st.dir st.cls := fun _ => rfl
  refine ⟨fun closed kind => ?_, fun st opened => ?_⟩
  · have closed' : (answered kind).body.stream i = none := closed
    rw [exec_notice i kind receives, State.onBody_of_eq (Body.noticeActs_closed closed' kind)]
  have closes : exec (.notice i 2) s = .next ((answered 2).onBody (Body.haltOrAbandon i .peerClosed)).settle := by
    rw [exec_notice i 2 receives, State.onBody_congr (Body.noticeActs_two i _)]
  have opens := exec_notice i 1 receives
  have closing : (answered 2).body.stream i = some st := opened
  have opening : (answered 1).body.stream i = some st := opened
  have resets : ∀ {b : Body} {st' : Stream}, b.stream i = some st' → st'.fixed = st.fixed →
      b.modify i Stream.resetSeq = b.modify i fun x => { x with seq := initial st } := by
    intro b st' h same
    rw [Body.modify_some h, Body.modify_some h, initial_eq, ← Stream.initial_of_fixed same]
    rfl
  rw [closes, opens]
  refine ⟨fun may => ?_, fun halting awaits => ?_, fun stays => ?_, fun stays => ?_, fun cls dir found => ?_⟩
  · rw [State.onBody, Body.haltOrAbandon_halts closing may]
    rfl
  · rw [State.onBody, Body.haltOrAbandon_abandons closing halting (st.awaitsAnswer_iff.mpr awaits)]
    rfl
  · rw [State.onBody_of_eq (Body.haltOrAbandon_stays closing ?_ ?_ _)]
    · exact Stream.not_mayHalt (stays.imp And.left (·.imp_right (·.imp_right And.right)))
    · rintro ⟨halting, awaits⟩
      rw [st.awaitsAnswer_iff] at awaits
      rcases stays with ⟨-, settled⟩ | halted | aborting | ⟨other, -⟩
      · exact settled awaits
      · exact absurd (halting.symm.trans halted) nofun
      · exact absurd (halting.symm.trans aborting) nofun
      · exact other halting
  · have unmoved : (answered 1).body.noticeActs i 1 = (answered 1).body.modify i Stream.resetSeq := by
      rw [Body.noticeActs_one opening]
      split
      · rfl
      · next sends =>
        obtain ⟨outside, inbound, none_sent⟩ := not_or.mp sends |>.imp_right not_or.mp
        obtain ⟨halting, settled⟩ := ((stays.resolve_left outside).resolve_left inbound).resolve_left none_sent
        rw [Body.haltOrAbandon_stays opening (Stream.not_mayHalt (.inl halting))]
        exact fun h => settled (st.awaitsAnswer_iff.mp h.2)
    rw [State.onBody, unmoved, resets opening rfl, Body.modify_some opening]
    rfl
  · have sends : ¬(st.cls = .scheduled ∨ st.dir = .inbound ∨ st.sentIndex = none) := by simp [cls, dir, found]
    obtain ⟨st', opened', same⟩ := Body.haltOrAbandon_stream opening .peerClosed
    rw [State.onBody, Body.noticeActs_one opening, if_neg sends, resets opened' same]
    rfl

/-! ### NOTICE_ACK -/

section

variable {b : Body} {i : StreamId} {kind : Byte}

/-- The queue holds a notice of the stream and kind (R129). -/
def Body.queues (i : StreamId) (kind : Byte) (b : Body) : Prop :=
  ∃ n ∈ b.lt.notices, n.stream = i ∧ kind = noticeCode n.closed

theorem Body.noticeAcked_of_queues (queued : b.queues i kind) : b.noticeAcked i kind = { b with lt := { b.lt with
    notices := b.lt.notices.filter (·.stream != i)
    due := b.lt.due.filter fun f => !f.isNoticeOf i, fresh := b.lt.fresh.filter fun f => !f.isNoticeOf i } } := by
  obtain ⟨n, mem, mine, same⟩ := queued
  exact if_pos (List.any_eq_true.mpr ⟨n, mem, by simp [mine, same]⟩)

theorem Body.noticeAcked_ignored (other : ¬b.queues i kind) : b.noticeAcked i kind = b := by
  refine if_neg fun h => other ?_
  obtain ⟨n, mem, same⟩ := List.any_eq_true.mp h
  obtain ⟨mine, code⟩ : n.stream = i ∧ noticeCode n.closed = kind := by simpa using same
  exact ⟨n, mem, mine, code.symm⟩

end

/-- Settles O40: a notice of the same kind is removed with its due frames, and any other stays. -/
theorem noticeAckRemovesTheNotice : Obligations.NoticeAckRemovesTheNotice := by
  refine fun s i kind receives => ⟨fun other => ?_, fun n mem mine same => ?_⟩
  · rw [exec_noticeAck i kind receives, State.onBody_of_eq (Body.noticeAcked_ignored ?_)]
    rintro ⟨n, mem, mine, same⟩
    exact other n mem mine same
  · have removed := Body.noticeAcked_of_queues (b := s.body) ⟨n, mem, mine, same⟩
    refine ⟨_, exec_noticeAck i kind receives, ?_⟩
    rw [State.onBody, removed]
    refine ⟨rfl, ?_, fun f => ?_, fun f => ?_, rfl⟩
    · simp +contextual [Body.awaitsOpened]
    · simp
    · simp

end Sys2Proof.Machine
end

section
/-! SUPPORT. The transmit lane: how a frame ends on it, and which frame starts on it next (R112, R115 to R119, R126). -/

namespace Sys2Proof.Machine

open Sys2Proof Host

/-! ### The end of a frame -/

section

variable {b : Body}

/-- The body with a free lane. -/
def Body.freed (b : Body) : Body := { b with lt := { b.lt with lane := none } }

theorem exec_transmitFrameEnd {s : State} (running : s.fn ≠ .faulted) :
    exec .transmitFrameEnd s = .next (s.onBody (Body.frameEnds s.ce.cycle)).settle :=
  congrArg Outcome.next (State.event_eq running _)

theorem Body.frameEnds_none (cycle : CycleNum) (idle : b.lt.lane = none) : b.frameEnds cycle = b := by
  simp only [Body.frameEnds, idle]

theorem Body.frameEnds_control {f : ControlFrame} (cycle : CycleNum) (lane : b.lt.lane = some (.control f)) :
    b.frameEnds cycle = if f.isFarewell then b.freed.completeIf (fun e => e.code == 9) .ok 0 else b.freed := by
  simp only [Body.frameEnds, lane, Body.freed]

theorem Body.frameEnds_data {h : DataHeader} {k : Nat} {p : List Byte} (cycle : CycleNum)
    (lane : b.lt.lane = some (.data h k p)) : b.frameEnds cycle =
      if h.cls = .scheduled then b.freed.modify h.stream (Stream.scheduledSent k cycle) else b.freed := by
  simp only [Body.frameEnds, lane, Body.freed]

/-- The last byte of a scheduled frame raises the counter; the packet is confirmed where the stream may read (R35,
R115). -/
theorem Stream.scheduledSent_eq {st : Stream} {counter : Byte} (k : Nat) (cycle : CycleNum)
    (seq : st.seq = .scheduledOut counter) : st.scheduledSent k cycle =
      if st.mayRead then { st.confirm k cycle with seq := .scheduledOut (counter + 1) }
      else { st with seq := .scheduledOut (counter + 1) } := by
  simp only [Stream.scheduledSent, seq, SeqState.countUp]
  rfl

end

/-- Settles O53: a frame ends by its kind, and a scheduled packet by its stream's state. -/
theorem framesEndOnTheLane : Obligations.FramesEndOnTheLane := by
  intro s serving c freed
  have ends : exec c s = .next (s.onBody (Body.frameEnds s.ce.cycle)).settle :=
    exec_transmitFrameEnd (FnState.ne_faulted serving)
  rw [ends]
  refine ⟨fun idle => ?_, fun f lane other => ?_, fun lane => ?_, fun h k p lane => ⟨fun cls => ?_,
    fun cls st counter opened seq => ?_⟩⟩
  · rw [State.onBody_of_eq (Body.frameEnds_none _ idle)]
  · rw [State.onBody, Body.frameEnds_control _ lane, other]
    rfl
  · rw [State.onBody, Body.frameEnds_control _ lane, ControlFrame.isFarewell, if_pos rfl, Body.completeIf]
    simp only [beq_iff_eq]
    rfl
  · rw [State.onBody, Body.frameEnds_data _ lane, cls]
    rfl
  · have opened' : s.body.freed.stream h.stream = some st := opened
    rw [State.onBody, Body.frameEnds_data _ lane, if_pos cls, Body.modify_some opened',
      Stream.scheduledSent_eq k _ seq]
    refine ⟨fun reads => ?_, fun inactive stops => ?_⟩
    · rw [if_pos (st.mayRead_iff.mpr reads), Stream.confirm_eq]
      rfl
    · have stopped : ¬st.mayRead = true := by
        rw [st.mayRead_iff]
        rintro (active | ⟨closing, uncaused⟩)
        · exact inactive active
        · exact stops.elim (· closing) (· uncaused)
      rw [if_neg stopped]
      rfl

/-! ### Due frames -/

section

variable {α : Type} {key : α → Nat} {N : Nat} {l : List α}

/-- The elements whose keys lie below `N` in the order of their keys, those of one key as they stand. -/
def buckets (key : α → Nat) (N : Nat) (l : List α) : List α := (List.range N).flatMap fun n => l.filter (key · == n)

theorem buckets_succ : buckets key (N + 1) l = buckets key N l ++ l.filter (key · == N) := by
  rw [buckets, List.range_succ, List.flatMap_append, List.flatMap_singleton, buckets]

theorem mem_buckets {a : α} : a ∈ buckets key N l ↔ a ∈ l ∧ key a < N := by
  simp only [buckets, List.mem_flatMap, List.mem_range, List.mem_filter, beq_iff_eq]
  exact ⟨fun ⟨n, low, mem, same⟩ => ⟨mem, same ▸ low⟩, fun ⟨mem, low⟩ => ⟨_, low, mem, rfl⟩⟩

theorem buckets_pairwise : (buckets key N l).Pairwise fun a b => key a ≤ key b := by
  induction N with
  | zero => exact .nil
  | succ N ih =>
    rw [buckets_succ, List.pairwise_append]
    refine ⟨ih, List.pairwise_of_forall_mem_list fun a ha b hb => ?_, fun a ha b hb => ?_⟩
    · have of_last : ∀ x ∈ l.filter (key · == N), key x = N := fun x hx => by simpa using List.of_mem_filter hx
      rw [of_last a ha, of_last b hb]
    · have last : key b = N := by simpa using List.of_mem_filter hb
      rw [last]
      exact (mem_buckets.mp ha).2.le

theorem buckets_filter (n : Nat) :
    (buckets key N l).filter (key · == n) = if n < N then l.filter (key · == n) else [] := by
  induction N with
  | zero => rfl
  | succ N ih =>
    rw [buckets_succ, List.filter_append, ih, List.filter_filter]
    by_cases last : n = N
    · simp [last]
    · have none_here : l.filter (fun a => key a == n && key a == N) = [] := by
        refine List.filter_eq_nil_iff.mpr fun a _ => ?_
        simp only [Bool.and_eq_true, beq_iff_eq]
        exact fun ⟨e, e'⟩ => last (e.symm.trans e')
      rw [none_here, List.append_nil]
      exact if_congr (by omega) rfl rfl

end

/-- The place of a frame among those that become due in one event: first those that name no stream, then in increasing
stream number (R112). -/
def ControlFrame.rank (f : ControlFrame) : Nat :=
  match f.stream with
  | some i => i.val + 1
  | none => 0

theorem ControlFrame.rank_lt (f : ControlFrame) : f.rank < 17 := by
  unfold ControlFrame.rank
  split <;> omega

theorem ControlFrame.rank_eq_zero (f : ControlFrame) : (f.rank == 0) = f.stream.isNone := by
  unfold ControlFrame.rank
  cases f.stream <;> rfl

theorem ControlFrame.rank_eq_succ (f : ControlFrame) (i : StreamId) : (f.rank == i.val + 1) = (f.stream == some i) := by
  unfold ControlFrame.rank
  cases f.stream with
  | none => rfl
  | some j =>
    rw [Bool.eq_iff_iff]
    simp [Fin.ext_iff]

/-- The frames of one event join those due before in the order of their ranks. -/
theorem Body.mergeDue_eq (b : Body) : b.mergeDue = { b with lt := { b.lt with
    due := b.lt.due ++ buckets ControlFrame.rank 17 b.lt.fresh, fresh := [] } } := by
  have ranks : List.range 17 = 0 :: (List.finRange 16).map (·.val + 1) := by decide
  simp only [Body.mergeDue, buckets, ranks, List.flatMap_cons, List.flatMap_map, ControlFrame.rank_eq_zero,
    ControlFrame.rank_eq_succ]

/-! ### What starts before a DATA frame -/

section

variable {b : Body} {env : Env}

/-- A DATA frame may start: the lane is free, and no marker and no control frame is due (R112). -/
def Body.laneIdle (b : Body) : Prop := b.lt.lane = none ∧ b.lt.markerDue = false ∧ b.lt.due = []

theorem Body.startFrame_busy (env : Env) (busy : b.lt.lane ≠ none) : b.startFrame env = b :=
  if_pos (Option.isSome_iff_ne_none.mpr busy)

theorem Body.startFrame_marker (env : Env) (free : b.lt.lane = none) (marker : b.lt.markerDue = true) :
    b.startFrame env =
      { b with lt := { b.lt with markerDue := false, lane := some (.control (.cycleStart env.cycle)) } } := by
  simp only [Body.startFrame, free, marker, Option.isSome_none, if_neg Bool.false_ne_true, if_true]

theorem Body.startFrame_due {f : ControlFrame} {fs : List ControlFrame} (env : Env) (free : b.lt.lane = none)
    (marker : b.lt.markerDue = false) (due : b.lt.due = f :: fs) : b.startFrame env = b.startDue f fs := by
  simp only [Body.startFrame, free, marker, due, Option.isSome_none, if_neg Bool.false_ne_true]

theorem Body.startFrame_down (idle : b.laneIdle) (down : env.up = false) : b.startFrame env = b := by
  obtain ⟨free, marker, due⟩ := idle
  simp only [Body.startFrame, free, marker, due, down, Option.isSome_none, if_neg Bool.false_ne_true]

theorem Body.startFrame_up (idle : b.laneIdle) (up : env.up = true) : b.startFrame env =
    if (b.runTurns 17).lt.lane.isNone ∧ (b.runTurns 17).lt.turn = some .over then (b.runTurns 17).scan
    else b.runTurns 17 := by
  obtain ⟨free, marker, due⟩ := idle
  simp only [Body.startFrame, free, marker, due, up, Option.isSome_none, if_neg Bool.false_ne_true, if_true]

end

/-! ### The scheduled turns -/

section

variable {b : Body} {env : Env} {i : StreamId} {st : Stream} {n : Nat}

/-- The turn has moved on from stream `i` (R115). -/
def Body.passTurn (i : StreamId) (b : Body) : Body := { b with lt := { b.lt with turn := some (nextTurn i) } }

/-- How many streams may still take their turn. -/
def turnsLeft : Option Turn → Nat
  | some (.at i _) => 16 - i.val
  | _ => 0

theorem turnsLeft_nextTurn (i : StreamId) : turnsLeft (some (nextTurn i)) + 1 = 16 - i.val := by
  unfold nextTurn
  split
  · simp only [turnsLeft]; omega
  · simp only [turnsLeft]; omega

theorem Body.runTurns_over (none_left : turnsLeft b.lt.turn = 0) (m : Nat) : b.runTurns m = b := by
  cases m with
  | zero => rfl
  | succ m =>
    rw [Body.runTurns]
    split
    · next i n turn =>
      rw [turn, turnsLeft] at none_left
      omega
    · rfl

theorem Body.runTurns_closed (turn : b.lt.turn = some (.at i n)) (closed : b.stream i = none) (m : Nat) :
    b.runTurns (m + 1) = (b.passTurn i).runTurns m := by
  simp only [Body.runTurns, turn, closed, Body.passTurn]

theorem Body.runTurns_starts {h : DataHeader} {k : Nat} {p : List Byte} (turn : b.lt.turn = some (.at i n))
    (opened : b.stream i = some st) (frame : st.turnFrame i n = some (.data h k p)) (m : Nat) :
    b.runTurns (m + 1) = { b with lt := { b.lt with
      turn := some (.at i (n + 1)), budget := b.lt.budget - (h.length + 12), lane := some (.data h k p) } } := by
  simp only [Body.runTurns, turn, opened, frame]

/-- A turn that ends short while data waits raises UNDERRUN as it passes on (R116). -/
theorem Body.runTurns_passes (turn : b.lt.turn = some (.at i n)) (opened : b.stream i = some st)
    (no_frame : st.turnFrame i n = none) (m : Nat) : b.runTurns (m + 1) =
      (if st.takesTurn && st.underruns n then (b.passTurn i).raise (some i) (.scheduleMiss false)
        else b.passTurn i).runTurns m := by
  simp only [Body.runTurns, turn, opened, no_frame, Body.passTurn]

/-- With as many moves as turns are left, or more, the turns run to their end. -/
theorem Body.runTurns_enough (m m' : Nat) (b : Body) (enough : turnsLeft b.lt.turn ≤ m)
    (enough' : turnsLeft b.lt.turn ≤ m') : b.runTurns m = b.runTurns m' := by
  induction m generalizing b m' with
  | zero => rw [Body.runTurns_over (Nat.le_zero.mp enough), Body.runTurns_over (Nat.le_zero.mp enough)]
  | succ m ih =>
    cases m' with
    | zero => rw [Body.runTurns_over (Nat.le_zero.mp enough'), Body.runTurns_over (Nat.le_zero.mp enough')]
    | succ m' =>
      rw [Body.runTurns, Body.runTurns]
      split
      · next i n turn =>
        rw [turn, turnsLeft, ← turnsLeft_nextTurn i] at enough enough'
        have passed : ∀ b' : Body, b'.lt.turn = some (nextTurn i) → b'.runTurns m = b'.runTurns m' := by
          intro b' turn'
          refine ih m' b' ?_ ?_ <;> rw [turn'] <;> omega
        dsimp only
        split
        · split
          · rfl
          · refine passed _ ?_
            split <;> rfl
        · exact passed _ rfl
      · rfl

/-- Where the turn moves on, the frame that starts is the one of the turn moved on. -/
theorem Body.startFrame_passes {b' : Body} (idle : b.laneIdle) (up : env.up = true) (idle' : b'.laneIdle)
    (turn : b'.lt.turn = some (nextTurn i)) (moves : ∀ m, b.runTurns (m + 1) = b'.runTurns m) :
    b.startFrame env = b'.startFrame env := by
  have left := turnsLeft_nextTurn i
  have same : b.runTurns 17 = b'.runTurns 17 := by
    rw [moves 16]
    refine Body.runTurns_enough 16 17 b' ?_ ?_ <;> rw [turn] <;> omega
  rw [Body.startFrame_up idle up, Body.startFrame_up idle' up, same]

theorem Stream.takesTurn_iff : st.takesTurn = true ↔ st.cls = .scheduled ∧ st.dir = .outbound ∧
    (st.state = .active ∨ (st.state = .closing ∧ st.cause = none)) := by
  simp [Stream.takesTurn, ← Stream.mayRead_iff, and_assoc]

theorem Stream.turnFrame_of_spent (spent : ¬(st.takesTurn = true ∧ n < st.perCycle)) : st.turnFrame i n = none :=
  if_neg spent

theorem Stream.turnFrame_of_empty (empty : st.queue = []) : st.turnFrame i n = none := by
  simp only [Stream.turnFrame, Stream.headBuffer, empty, ite_self]

theorem Stream.turnFrame_of_head {k : Nat} {ks : List Nat} {data : List Byte} {mark : Bool} {counter : Byte}
    (takes : st.takesTurn = true ∧ n < st.perCycle) (queue : st.queue = k :: ks)
    (head : st.buffer k = .committed data mark) (seq : st.seq = .scheduledOut counter) : st.turnFrame i n = some (.data
      { stream := i, cls := .scheduled, mark := mark, bit := false, counter := counter, slot := BitVec.ofNat 8 n,
        length := data.length } k data) := by
  simp only [Stream.turnFrame, if_pos takes, Stream.headBuffer, queue, head, seq]

theorem Stream.underruns_iff : st.underruns n = true ↔ n < st.perCycle ∧ (0 < st.openPacket ∨
    ∃ e ∈ st.sends, e.confirmed ≠ e.length ∨ (e.eom = true ∧ e.markConfirmed = false)) := by
  have unfinished : ∀ e : SendEntry, e.finished = false ↔
      e.confirmed ≠ e.length ∨ (e.eom = true ∧ e.markConfirmed = false) := by
    intro e
    rw [← Bool.not_eq_true, e.finished_iff, not_and_or, Classical.not_imp, Bool.not_eq_true]
  simp [Stream.underruns, unfinished]

end

/-! ### The scan -/

section

variable {b : Body} {i : StreamId} {st : Stream} {position : StreamId} {p : StreamId → Bool}

/-- The packet of buffer `k`, at the head of the queue, may be sent in the stream's state: a COMMITTED one for the first
time, or a SENT one that is DUE and still awaited once more (R117; notes/assumptions/21.md). -/
def Stream.headMayGo (k : Nat) (st : Stream) : Prop :=
  (st.buffer k).isCommitted = true ∧ (st.state = .active ∨ (st.state = .closing ∧ st.cause = none)) ∨
    (∃ data mark bit next n, st.buffer k = .sent data mark bit .due ∧ st.seq = .bestEffortOut next true n) ∧
      (st.state = .active ∨ st.state = .flushing ∨ st.state = .halting ∨ (st.state = .closing ∧ st.cause = none))

/-- A stream with a packet at the head of its queue is eligible by that packet (R117). -/
theorem Body.eligible_iff {k : Nat} {ks : List Nat} (queue : st.queue = k :: ks) : b.eligible i st = true ↔
    st.cls = .bestEffort ∧ st.dir = .outbound ∧ (∀ n ∈ b.lt.notices, n.stream = i → n.closed = true) ∧
      st.headMayGo k := by
  have awaits : b.awaitsOpened i = false ↔ ∀ n ∈ b.lt.notices, n.stream = i → n.closed = true := by
    simp [Body.awaitsOpened]
  have in_flight : st.seq.inFlight = true ↔ ∃ next n, st.seq = .bestEffortOut next true n := by
    cases st.seq <;> simp [SeqState.inFlight]
  have resends : (st.mayRead || st.state == .flushing || st.state == .halting) = true ↔ st.state = .active ∨
      st.state = .flushing ∨ st.state = .halting ∨ (st.state = .closing ∧ st.cause = none) := by
    simp only [Bool.or_eq_true, beq_iff_eq, st.mayRead_iff]
    tauto
  simp only [Body.eligible, Bool.and_eq_true, Bool.not_eq_true', Stream.isBestEffortOut_iff, awaits, Stream.headBuffer,
    queue, and_assoc, Stream.headMayGo, ← st.mayRead_iff]
  refine and_congr_right fun _ => and_congr_right fun _ => and_congr_right fun _ => ?_
  cases head : st.buffer k with
  | committed data mark => simp [Buffer.isCommitted]
  | sent data mark bit answer =>
    cases answer with
    | due =>
      show (st.seq.inFlight && (st.mayRead || st.state == .flushing || st.state == .halting)) = true ↔ _
      rw [Bool.and_eq_true, in_flight, resends]
      simp [Buffer.isCommitted]
    | _ => simp [Buffer.isCommitted]
  | _ => simp [Buffer.isCommitted]

/-- The stream can be chosen: it is eligible, and its head fits the budget left (R118). -/
theorem Body.sendable_iff : b.sendable i = true ↔
    ∃ st k ks, b.stream i = some st ∧ st.cls = .bestEffort ∧ st.dir = .outbound ∧
      (∀ n ∈ b.lt.notices, n.stream = i → n.closed = true) ∧ st.queue = k :: ks ∧
      (st.buffer k).count + 12 ≤ b.lt.budget ∧ st.headMayGo k := by
  have of_head : ∀ {st k ks}, b.stream i = some st → st.queue = k :: ks →
      (b.sendable i = true ↔ b.eligible i st = true ∧ (st.buffer k).count + 12 ≤ b.lt.budget) := by
    intro st k ks opened queue
    simp [Body.sendable, opened, Stream.headBuffer, queue]
  constructor
  · intro sends
    cases opened : b.stream i with
    | none => simp [Body.sendable, opened] at sends
    | some st =>
      cases queue : st.queue with
      | nil => simp [Body.sendable, opened, Stream.headBuffer, queue] at sends
      | cons k ks =>
        obtain ⟨eligible, fits⟩ := (of_head opened queue).mp sends
        obtain ⟨cls, dir, notices, head⟩ := (Body.eligible_iff queue).mp eligible
        exact ⟨st, k, ks, rfl, cls, dir, notices, queue, fits, head⟩
  · rintro ⟨st, k, ks, opened, cls, dir, notices, queue, fits, head⟩
    exact (of_head opened queue).mpr ⟨(Body.eligible_iff queue).mpr ⟨cls, dir, notices, head⟩, fits⟩

/-- How far a stream stands behind the round-robin position in a scan (R118). -/
def scanPlace (position i : StreamId) : Nat := (i.val + 15 - position.val) % 16

theorem scanOrder_getElem (position : StreamId) (n : Nat) (low : n < (scanOrder position).length) :
    ((scanOrder position)[n]).val = (position.val + 1 + n) % 16 := by
  simp [scanOrder]

/-- A scan finds the stream that it picks and that stands before every other it picks. -/
theorem find?_scanOrder (picked : p i = true) (first : ∀ j, scanPlace position j < scanPlace position i → p j = false) :
    (scanOrder position).find? p = some i := by
  have length : (scanOrder position).length = 16 := by simp [scanOrder]
  have low : scanPlace position i < (scanOrder position).length := by
    rw [length]
    exact Nat.mod_lt _ (by decide)
  refine List.find?_eq_some_iff_getElem.mpr ⟨picked, scanPlace position i, low, Fin.ext ?_, fun j less => ?_⟩
  · rw [scanOrder_getElem, scanPlace]
    omega
  · rw [first _ ?_]
    · rfl
    · rw [scanPlace, scanOrder_getElem]
      rw [scanPlace] at less ⊢
      omega

theorem Body.scan_none (none_sends : ∀ i, b.sendable i = false) : b.scan = b := by
  have found : (scanOrder b.lt.roundRobin).find? b.sendable = none :=
    List.find?_eq_none.mpr fun i _ => by simp [none_sends i]
  simp only [Body.scan, found]

theorem Body.scan_sends {st' : Stream} {k : Nat} {mark bit : Bool} {data : List Byte} (sends : b.sendable i = true)
    (first : ∀ j, scanPlace b.lt.roundRobin j < scanPlace b.lt.roundRobin i → b.sendable j = false)
    (opened : b.stream i = some st) (head : st.sendHead = some (st', k, mark, bit, data)) :
    b.scan = { b.put i st st' with lt := { (b.put i st st').lt with
      budget := b.lt.budget - (data.length + 12), roundRobin := i
      lane := some (.data { stream := i, cls := .bestEffort, mark := mark, bit := bit, counter := 0, slot := 0,
                            length := data.length } k data) } } := by
  simp only [Body.scan, find?_scanOrder sends first, opened, head]

/-- With the turns over, the frame that starts is the scan's. -/
theorem Body.startFrame_scans {env : Env} (idle : b.laneIdle) (up : env.up = true) (ended : b.lt.turn = some .over) :
    b.startFrame env = b.scan := by
  have ran : b.runTurns 17 = b := Body.runTurns_over (by rw [ended]; rfl) 17
  rw [Body.startFrame_up idle up, ran, if_pos ⟨by rw [idle.1]; rfl, ended⟩]

theorem Stream.sendHead_committed {k n : Nat} {ks : List Nat} {data : List Byte} {mark next flight : Bool}
    (queue : st.queue = k :: ks) (head : st.buffer k = .committed data mark)
    (seq : st.seq = .bestEffortOut next flight n) : st.sendHead = some ({ st with
      buffers := st.buffers.set k (.sent data mark next .awaiting0), seq := .bestEffortOut next true n },
      k, mark, next, data) := by
  simp only [Stream.sendHead, Stream.headBuffer, queue, head, seq, Stream.setBuffer]

theorem Stream.sendHead_sent {k : Nat} {ks : List Nat} {data : List Byte} {mark bit : Bool} {answer : AnswerCondition}
    (queue : st.queue = k :: ks) (head : st.buffer k = .sent data mark bit answer) :
    st.sendHead = some ({ st with
      buffers := st.buffers.set k (.sent data mark bit .awaiting0) }, k, mark, bit, data) := by
  simp only [Stream.sendHead, Stream.headBuffer, queue, head, Stream.setBuffer]

end

/-- Settles O52: the due frames by their ranks; what starts by what is due, by the turn, or by the scan. -/
theorem framesAreChosenInOrder : Obligations.FramesAreChosenInOrder := by
  intro env b onLane idle named
  refine ⟨?due, Body.startFrame_busy env, Body.startFrame_marker env, ?control, Body.startFrame_down, ?turns, ?scan⟩
  case due =>
    have rank : ∀ f, named f = f.rank := fun f => by cases f <;> rfl
    simp only [rank]
    refine ⟨_, b.mergeDue_eq, buckets_pairwise, fun n => ?_⟩
    rw [buckets_filter]
    split
    · rfl
    · refine (List.filter_eq_nil_iff.mpr fun f _ => ?_).symm
      have := f.rank_lt
      rw [beq_iff_eq]
      omega
  case control =>
    intro f fs free marker due
    refine (Body.startFrame_due env free marker due).trans ?_
    cases f <;> rfl
  case turns =>
    intro i n idle up turn passed
    have passes : ∀ b' : Body, b'.lt = passed.lt → (∀ m, b.runTurns (m + 1) = b'.runTurns m) →
        b.startFrame env = b'.startFrame env := fun b' same =>
      Body.startFrame_passes (i := i) idle up (by rw [Body.laneIdle, same]; exact idle) (by rw [same]; rfl)
    refine ⟨fun closed => passes passed rfl (Body.runTurns_closed turn closed), fun st opened => ?_⟩
    intro serves
    have serves_iff : st.takesTurn = true ↔ serves := st.takesTurn_iff
    have quiet : st.turnFrame i n = none → ¬(serves ∧ st.underruns n = true) →
        b.startFrame env = passed.startFrame env := by
      refine fun no_frame quiet => passes passed rfl fun m => ?_
      rw [Body.runTurns_passes turn opened no_frame, if_neg]
      · rfl
      · rwa [Bool.and_eq_true, serves_iff]
    refine ⟨fun idles => quiet (Stream.turnFrame_of_spent (idles ∘ serves_iff.mp ∘ And.left)) (idles ∘ And.left),
      fun _ spent => ?_, fun takes unspent empty => ⟨fun short => ?_, fun not_short => ?_⟩,
      fun k ks data mark counter takes unspent queue head seq => ?_⟩
    · exact quiet (Stream.turnFrame_of_spent fun h => absurd h.2 (Nat.not_lt.mpr spent)) fun h =>
        absurd (Stream.underruns_iff.mp h.2).1 (Nat.not_lt.mpr spent)
    · refine passes (passed.raise (some i) (.scheduleMiss false)) rfl fun m => ?_
      rw [Body.runTurns_passes turn opened (Stream.turnFrame_of_empty empty), if_pos]
      · rfl
      · exact Bool.and_eq_true_iff.mpr ⟨serves_iff.mpr takes, Stream.underruns_iff.mpr ⟨unspent, short⟩⟩
    · exact quiet (Stream.turnFrame_of_empty empty) fun h => not_short (Stream.underruns_iff.mp h.2).2
    · have starts := Body.runTurns_starts turn opened
        (Stream.turnFrame_of_head ⟨serves_iff.mpr takes, unspent⟩ queue head seq) 16
      rw [Body.startFrame_up idle up, starts]
      rfl
  case scan =>
    intro idle up ended canSend after
    have sends_iff : ∀ i, b.sendable i = true ↔ canSend i := fun i => Body.sendable_iff
    have sends_not : ∀ i, ¬canSend i → b.sendable i = false := fun i h => Bool.eq_false_iff.mpr (mt (sends_iff i).mp h)
    rw [Body.startFrame_scans idle up ended]
    refine ⟨fun none_sends => Body.scan_none fun i => sends_not i (none_sends i), ?_⟩
    intro i st k ks next flight count sends first opened queue seq data mark bit st' head
    refine ⟨_, rfl, Body.scan_sends ((sends_iff i).mpr sends) (fun j less => sends_not j (first j less)) opened ?_⟩
    rcases head with ⟨committed, rfl, rfl⟩ | ⟨sent, rfl⟩
    · exact Stream.sendHead_committed queue committed seq
    · exact Stream.sendHead_sent queue sent

end Sys2Proof.Machine
end

section
/-! SUPPORT. What a cycle start does to Link Transfer: answer conditions, notices, and the end of a link whose notice
has gone unacknowledged (R9, R11, R13, R114, R120, R126, R147). -/

namespace Sys2Proof.Machine

open Sys2Proof

/-! ### The answer condition of the SENT packet -/

section

variable {st : Stream} {k : Nat} {data : List Byte} {mark b : Bool} {answer : AnswerCondition}

theorem Stream.advanceAnswer_of_none (none_sent : st.sentIndex = none) : st.advanceAnswer = st := by
  simp only [Stream.advanceAnswer, none_sent]

/-- The answer condition moves on towards DUE; the deadline of AWAITING(1) counts a send that was not answered
(R120). -/
theorem Stream.advanceAnswer_eq (found : st.sentIndex = some k) (sent : st.buffer k = .sent data mark b answer) :
    st.advanceAnswer = match answer with
      | .awaiting0 => st.setBuffer k (.sent data mark b .awaiting1)
      | .awaiting1 => { st.setBuffer k (.sent data mark b .due) with seq := st.seq.missAnswer }
      | .deferred => st.setBuffer k (.sent data mark b .due)
      | .due => st := by
  cases answer <;> simp only [Stream.advanceAnswer, found, sent]

theorem Stream.deadlinePasses_of_none (none_sent : st.sentIndex = none) : st.deadlinePasses = false := by
  simp only [Stream.deadlinePasses, none_sent]

theorem Stream.deadlinePasses_iff (found : st.sentIndex = some k) (sent : st.buffer k = .sent data mark b answer) :
    st.deadlinePasses = true ↔ answer = .awaiting1 := by
  cases answer <;> simp [Stream.deadlinePasses, found, sent]

@[simp] theorem Stream.abandon_watch (st : Stream) : st.abandon.watch = st.watch := by
  rcases st.abandon_cases with ⟨-, h⟩ | ⟨-, h⟩ <;> simp [h, Stream.discard]

@[simp] theorem Stream.beginHalt_watch (cause : HaltCause) (st : Stream) : (st.beginHalt cause).watch = st.watch := by
  unfold Stream.beginHalt
  split
  · exact st.abandon_watch
  · rfl

@[simp] theorem Stream.advanceAnswer_watch (st : Stream) : st.advanceAnswer.watch = st.watch := by
  unfold Stream.advanceAnswer
  repeat' split
  all_goals rfl

end

/-! ### The cycle start for one stream -/

section

variable {b : Body} {i : StreamId} {st : Stream}

theorem Body.advanceAnswer_closed (up : Bool) (closed : b.stream i = none) : b.advanceAnswer up i = b := by
  simp only [Body.advanceAnswer, closed]

/-- The sixteenth unanswered send halts the stream, or ends its wait, and re-synchronises it (R11, R13, R120). -/
theorem Body.advanceAnswer_open (up : Bool) (opened : b.stream i = some st) : b.advanceAnswer up i =
    if st.deadlinePasses ∧ 16 ≤ st.seq.unanswered + 1 then
      ((b.put i st st.advanceAnswer).haltOrAbandon i .noAnswer).resynchronise up i
    else b.put i st st.advanceAnswer := by
  simp only [Body.advanceAnswer, opened, Body.modify_some opened]

theorem Body.resynchronise_stream (b : Body) (i : StreamId) :
    (b.resynchronise true i).stream i = (b.stream i).map Stream.resetSeq := by
  show (b.modify i Stream.resetSeq).stream i = _
  rw [Body.modify_stream_self]
  exact congrArg (Option.map · _) (funext fun st => Stream.stored_of_buffers st.resetSeq_buffers)

theorem Body.resynchronise_events (b : Body) (i : StreamId) : (b.resynchronise true i).events = b.events := by
  show (b.modify i Stream.resetSeq).events = _
  cases opened : b.stream i with
  | none => rw [Body.modify_none opened]
  | some st => rw [Body.modify_some opened, Body.put_events_of_buffers st.resetSeq_buffers]

/-- A stream that is re-synchronised in UP has a NOTICE(OPENED) due (R13, R126). -/
theorem Body.resynchronise_notice (b : Body) (i : StreamId) :
    ControlFrame.notice i 1 ∈ (b.resynchronise true i).lt.fresh :=
  List.mem_append_right _ (List.mem_singleton_self _)

/-! ### Events that are raised -/

theorem mem_raiseInto {source : Option StreamId} {d : Detail} {es : List Event} {e : Event}
    (mem : e ∈ raiseInto source d es) : e.detail = d ∨ e ∈ es := by
  induction es with
  | nil =>
    rw [raiseInto, List.mem_singleton] at mem
    exact .inl (by rw [mem])
  | cons x es ih =>
    rw [raiseInto] at mem
    split at mem
    · rcases List.mem_cons.mp mem with rfl | mem
      · exact .inl rfl
      · exact .inr (List.mem_cons_of_mem _ mem)
    · rcases List.mem_cons.mp mem with rfl | mem
      · exact .inr (List.mem_cons_self ..)
      · exact (ih mem).imp_right (List.mem_cons_of_mem _)

/-- The pending entry of a raised event's source and kind, of which there is one at most (R174). -/
def Event.takes (source : Option StreamId) (d : Detail) (e : Event) : Prop := e.source = source ∧ e.detail.kind = d.kind

theorem raiseInto_of_absent {source : Option StreamId} {d : Detail} {es : List Event}
    (absent : ∀ e ∈ es, ¬e.takes source d) :
    raiseInto source d es = es ++ [{ source := source, detail := d, count := 1 }] := by
  induction es with
  | nil => rfl
  | cons x es ih =>
    obtain ⟨head, tail⟩ := List.forall_mem_cons.mp absent
    rw [raiseInto, ih tail]
    exact if_neg head

theorem raiseInto_sources_of_present {source : Option StreamId} {d : Detail} {es : List Event} {e : Event}
    (mem : e ∈ es) (takes : e.takes source d) : (raiseInto source d es).map Event.source = es.map Event.source := by
  induction es with
  | nil => cases mem
  | cons x es ih =>
    rw [raiseInto]
    split
    · rfl
    · next passed =>
      rcases List.mem_cons.mp mem with rfl | mem
      · exact absurd takes passed
      · rw [List.map_cons, ih mem, List.map_cons]

/-- A store event raises no event but WATCH (R42). -/
theorem Body.mem_put_events {old new : Stream} {e : Event} (mem : e ∈ (b.put i old new).events) :
    (∃ c, e.detail = .watch c) ∨ e ∈ b.events := by
  rw [Body.put_eq] at mem
  dsimp only at mem
  split at mem
  · exact (mem_raiseInto mem).imp_left fun detail => ⟨_, detail⟩
  · exact .inr mem

end

/-! ### The sixteenth unanswered send -/

section

variable {b : Body} {i : StreamId} {st : Stream} {k : Nat} {data : List Byte} {mark bit : Bool} {next flight : Bool}
  {count : Nat}

/-- The stream whose SENT packet of buffer `k` has gone unanswered once more (R120). -/
def Stream.missed (k : Nat) (data : List Byte) (mark bit next flight : Bool) (count : Nat) (st : Stream) : Stream :=
  { st with buffers := st.buffers.set k (.sent data mark bit .due), seq := .bestEffortOut next flight (count + 1) }

theorem Stream.advanceAnswer_missed (found : st.sentIndex = some k)
    (sent : st.buffer k = .sent data mark bit .awaiting1) (seq : st.seq = .bestEffortOut next flight count) :
    st.advanceAnswer = st.missed k data mark bit next flight count := by
  rw [Stream.advanceAnswer_eq found sent, seq]
  rfl

/-- A stream after its sixteenth unanswered send is what a halt with NO_ANSWER or the abandonment makes of it,
re-synchronised. -/
theorem Body.advanceAnswer_sixteenth (opened : b.stream i = some st) (found : st.sentIndex = some k)
    (sent : st.buffer k = .sent data mark bit .awaiting1) (seq : st.seq = .bestEffortOut next flight count)
    (many : 15 ≤ count) : b.advanceAnswer true i =
      ((b.put i st (st.missed k data mark bit next flight count)).haltOrAbandon i .noAnswer).resynchronise true i := by
  have unanswered : st.seq.unanswered = count := by rw [seq]; rfl
  rw [Body.advanceAnswer_open true opened, if_pos ⟨(Stream.deadlinePasses_iff found sent).mpr rfl, by omega⟩,
    Stream.advanceAnswer_missed found sent seq]

/-- What the store event of that send leaves: the watch may have moved. -/
def Stream.missedStored (k : Nat) (data : List Byte) (mark bit next flight : Bool) (count : Nat) (st : Stream) :
    Stream :=
  st.stored (st.missed k data mark bit next flight count)

theorem Stream.missedStored_fixed (st : Stream) :
    (st.missedStored k data mark bit next flight count).fixed = st.fixed :=
  Stream.fixed_of_buffers rfl (List.length_set ..)

theorem Stream.missedStored_sentIndex (found : st.sentIndex = some k) :
    (st.missedStored k data mark bit next flight count).sentIndex = some k := Stream.sentIndex_of_set found rfl rfl

theorem Stream.missedStored_buffer (found : st.sentIndex = some k) :
    (st.missedStored k data mark bit next flight count).buffer =
      Function.update st.buffer k (.sent data mark bit .due) := Stream.buffer_of_set_sent found rfl

/-- The same buffers are SENT before and after. -/
theorem Stream.missedStored_isSent (found : st.sentIndex = some k) (j : Nat) :
    ((st.missedStored k data mark bit next flight count).buffer j).isSent = (st.buffer j).isSent := by
  rw [Stream.missedStored_buffer found, Function.update_apply]
  split
  · next e => rw [e, (Stream.buffer_of_findIdx? found).2]; rfl
  · rfl

/-- The abandonment that follows changes the buffers, the queue, the bytes discarded and the sequence state alone (R10,
R37). -/
theorem Stream.missedStored_abandon (found : st.sentIndex = some k) :
    let missed := st.missedStored k data mark bit next flight count
    missed.abandon = { st with
      buffers := missed.abandon.buffers, queue := st.queue.filter fun j => !(st.buffer j).isSent
      discarded := missed.abandon.discarded, seq := .bestEffortOut next false (count + 1), watch := missed.watch } := by
  intro missed
  have queue : (missed.queue.filter fun j => !(missed.buffer j).isSent) =
      st.queue.filter fun j => !(st.buffer j).isSent :=
    List.filter_congr fun j _ => by rw [Stream.missedStored_isSent found]
  rw [Stream.abandon_of_some (Stream.missedStored_sentIndex found), ← queue]
  rfl

theorem Stream.missedStored_abandon_buffer (found : st.sentIndex = some k) (j : Nat) :
    (st.missedStored k data mark bit next flight count).abandon.buffer j =
      if (st.buffer j).isSent then .free else st.buffer j := by
  rw [Stream.abandon_of_some (Stream.missedStored_sentIndex found)]
  refine (Stream.discard_buffer ..).trans ?_
  rw [Stream.missedStored_isSent found]
  split
  · rfl
  · next unsent =>
    have other : j ≠ k := fun e => unsent (e ▸ (Stream.buffer_of_findIdx? found).2)
    rw [Stream.missedStored_buffer found, Function.update_of_ne other]

theorem Stream.missedStored_abandon_discarded (found : st.sentIndex = some k)
    (only : ∀ j, j ≠ k → (st.buffer j).isSent = false) :
    (st.missedStored k data mark bit next flight count).abandon.discarded = st.discarded + data.length := by
  have sent : (st.missedStored k data mark bit next flight count).buffer k = .sent data mark bit .due := by
    rw [Stream.missedStored_buffer found, Function.update_self]
  have only' : ∀ j, j ≠ k → ((st.missedStored k data mark bit next flight count).buffer j).isSent = false :=
    fun j other => (Stream.missedStored_isSent found j).trans (only j other)
  rw [Stream.abandon_of_some (Stream.missedStored_sentIndex found), Stream.discard_sent_eq sent only']
  rfl

/-- Of a stream that can halt the sixteenth unanswered send is a halt with NO_ANSWER (R9, R120). -/
theorem Body.advanceAnswer_halts (opened : b.stream i = some st) (found : st.sentIndex = some k)
    (sent : st.buffer k = .sent data mark bit .awaiting1) (seq : st.seq = .bestEffortOut next flight count)
    (many : 15 ≤ count) (may : st.mayHalt = true) :
    let missed := st.missedStored k data mark bit next flight count
    (b.advanceAnswer true i).stream i = some (missed.stored (missed.beginHalt .noAnswer)).resetSeq := by
  intro missed
  have may' : missed.mayHalt = true := may
  rw [Body.advanceAnswer_sixteenth opened found sent seq many, Body.resynchronise_stream,
    Body.haltOrAbandon_halts (Body.put_stream_self ..) may', Body.raise_stream, Body.put_stream_self]
  rfl

/-- Of a stream HALTING it ends the wait for the SENT packet (R11, R120). -/
theorem Body.advanceAnswer_ends_wait (opened : b.stream i = some st) (found : st.sentIndex = some k)
    (sent : st.buffer k = .sent data mark bit .awaiting1) (seq : st.seq = .bestEffortOut next true count)
    (many : 15 ≤ count) (halting : st.state = .halting) :
    let missed := st.missedStored k data mark bit next true count
    b.advanceAnswer true i = ((b.put i st (st.missed k data mark bit next true count)).put i missed
      missed.abandon).resynchronise true i := by
  intro missed
  have awaits : missed.awaitsAnswer = true := by
    rw [Stream.awaitsAnswer, Stream.missedStored_sentIndex found]
    rfl
  rw [Body.advanceAnswer_sixteenth opened found sent seq many,
    Body.haltOrAbandon_abandons (st := missed) (Body.put_stream_self ..) halting awaits]

end

/-! ### Notices -/

theorem Notice.exhausted_iff (n : Notice) : n.exhausted = true ↔ n.due = false ∧ n.waited = true ∧ 8 ≤ n.sends := by
  simp [Notice.exhausted, and_assoc]

/-- The body in which a cycle has begun: the budget, the turns and the leader's marker are set anew (R114). -/
def State.begun (s : State) : Body :=
  { s.body with lt := s.body.lt.newCycle (s.ce.role == some .leader) s.ce.inForce.capacity }

/-- That body once every answer condition has advanced (R120). -/
def State.answered (s : State) : Body := (List.finRange 16).foldl (Body.advanceAnswer true) s.begun

@[simp] theorem State.leaveUpWith_streams (f : Body → Body) (cause : DownCause) (s : State) :
    (s.leaveUpWith f cause).body.streams = (f (s.body.raise none (.linkState .down (some cause)))).streams := rfl

@[simp] theorem State.leaveUpWith_events (f : Body → Body) (cause : DownCause) (s : State) :
    (s.leaveUpWith f cause).body.events = (f (s.body.raise none (.linkState .down (some cause)))).events := rfl

theorem State.startCycle_eq (n : CycleNum) (s : State) : s.startCycle n =
    if s.answered.lt.notices.any Notice.exhausted then
      State.leaveUpWith (Body.loseLinkAfter (Body.advanceAnswer true)) .peerSilent
        { s with ce := { s.ce with cycle := n }, body := s.begun }
    else { s with ce := { s.ce with cycle := n }, body := s.answered.advanceNotices } := by
  have answered : (List.finRange 16).foldl (Body.advanceAnswer true)
      { s.body with lt := s.body.lt.newCycle (s.ce.role == some .leader) s.ce.inForce.capacity } = s.answered := rfl
  rw [State.startCycle]
  dsimp only
  rw [answered]
  rfl

theorem exhausted_iff {notices : List Notice} : notices.any Notice.exhausted = true ↔
    ∃ x ∈ notices, x.due = false ∧ x.waited = true ∧ 8 ≤ x.sends := by
  simp only [List.any_eq_true, Notice.exhausted_iff]

/-! ### The halts of one event, in increasing stream number -/

/-- These events are halts of streams below `k`, with NO_ANSWER or LINK_LOST, in increasing stream number (R9). -/
def HaltsBelow (k : Nat) (es : List Event) : Prop :=
  ∃ halted : List StreamId, halted.Pairwise (· < ·) ∧ (∀ j ∈ halted, j.val < k) ∧
    es.map Event.source = halted.map some ∧
    ∀ e ∈ es, e.detail = .streamHalted .noAnswer ∨ e.detail = .streamHalted .linkLost

/-- A halt of the stream whose turn it is joins the list, or merges into that stream's halt (R174). -/
theorem HaltsBelow.raise {i : StreamId} {es : List Event} {cause : HaltCause} (h : HaltsBelow (i.val + 1) es)
    (of_event : cause = .noAnswer ∨ cause = .linkLost) :
    HaltsBelow (i.val + 1) (raiseInto (some i) (.streamHalted cause) es) := by
  obtain ⟨halted, sorted, below, sources, details⟩ := h
  have details' : ∀ e ∈ raiseInto (some i) (.streamHalted cause) es,
      e.detail = .streamHalted .noAnswer ∨ e.detail = .streamHalted .linkLost := by
    intro e mem
    rcases mem_raiseInto mem with detail | mem
    · rcases of_event with rfl | rfl
      · exact .inl detail
      · exact .inr detail
    · exact details e mem
  by_cases mem : i ∈ halted
  · have source : some i ∈ es.map Event.source := sources ▸ List.mem_map_of_mem mem
    obtain ⟨e, mem, source⟩ := List.mem_map.mp source
    have takes : e.takes (some i) (.streamHalted cause) :=
      ⟨source, by rcases details e mem with detail | detail <;> rw [detail] <;> rfl⟩
    exact ⟨halted, sorted, below, (raiseInto_sources_of_present mem takes).trans sources, details'⟩
  · have absent : ∀ e ∈ es, ¬e.takes (some i) (.streamHalted cause) := by
      rintro e in_es ⟨source, -⟩
      have : some i ∈ halted.map some := sources ▸ source ▸ List.mem_map_of_mem in_es
      exact mem (by simpa using this)
    refine ⟨halted ++ [i], ?_, ?_, ?_, details'⟩
    · refine List.pairwise_append.mpr ⟨sorted, List.pairwise_singleton .., fun j hj l hl => ?_⟩
      obtain rfl := List.mem_singleton.mp hl
      exact lt_of_le_of_ne (Nat.lt_succ_iff.mp (below j hj)) fun e => mem (e ▸ hj)
    · intro j hj
      rcases List.mem_append.mp hj with hj | hj
      · exact below j hj
      · rw [List.mem_singleton.mp hj]
        exact Nat.lt_succ_self _
    · rw [raiseInto_of_absent absent, List.map_append, List.map_append, sources]
      rfl

/-- No stream has a watch, and the pending events are LINK_STATE and the halts of streams below `k`. -/
structure Body.LinkLostBelow (k : Nat) (b : Body) : Prop where
  unwatched : ∀ i st, b.stream i = some st → st.watch = none
  events : ∃ first rest, b.events = first :: rest ∧ first.source = none ∧
    first.detail = .linkState .down (some .peerSilent) ∧ HaltsBelow k rest

section

variable {b : Body} {i : StreamId} {k : Nat}

theorem Body.LinkLostBelow.put {old new : Stream} (h : b.LinkLostBelow k) (off : new.watch = none) :
    (b.put i old new).LinkLostBelow k := by
  obtain ⟨self, events⟩ := Body.put_of_watch_kept i b ((watchAfter_of_off (old := old) off).trans (by rw [off]))
  refine ⟨fun j st opened => ?_, events ▸ h.events⟩
  by_cases e : j = i
  · subst e
    rw [self] at opened
    cases opened
    exact off
  · rw [Body.put_stream_ne e] at opened
    exact h.unwatched j st opened

theorem Body.LinkLostBelow.modify {f : Stream → Stream} (h : b.LinkLostBelow k)
    (keeps : ∀ st, (f st).watch = st.watch) : (b.modify i f).LinkLostBelow k := by
  cases opened : b.stream i with
  | none => rwa [Body.modify_none opened]
  | some st =>
    rw [Body.modify_some opened]
    exact h.put ((keeps st).trans (h.unwatched i st opened))

theorem Body.LinkLostBelow.raise {cause : HaltCause} (h : b.LinkLostBelow (i.val + 1))
    (of_event : cause = .noAnswer ∨ cause = .linkLost) :
    (b.raise (some i) (.streamHalted cause)).LinkLostBelow (i.val + 1) := by
  obtain ⟨first, rest, events, source, detail, halts⟩ := h.events
  refine ⟨h.unwatched, first, raiseInto (some i) (.streamHalted cause) rest, ?_, source, detail, halts.raise of_event⟩
  rw [Body.raise_events, events, raiseInto, if_neg]
  rintro ⟨same, -⟩
  exact absurd (source.symm.trans same) nofun

theorem Body.LinkLostBelow.halt {cause : HaltCause} (h : b.LinkLostBelow (i.val + 1))
    (of_event : cause = .noAnswer ∨ cause = .linkLost) : (b.halt i cause).LinkLostBelow (i.val + 1) := by
  cases opened : b.stream i with
  | none => rwa [Body.halt_none opened]
  | some st =>
    rw [Body.halt_eq opened]
    split
    · exact (h.put ((st.beginHalt_watch cause).trans (h.unwatched i st opened))).raise of_event
    · exact h

theorem Body.LinkLostBelow.haltOrAbandon {cause : HaltCause} (h : b.LinkLostBelow (i.val + 1))
    (of_event : cause = .noAnswer ∨ cause = .linkLost) : (b.haltOrAbandon i cause).LinkLostBelow (i.val + 1) := by
  cases opened : b.stream i with
  | none => rwa [Body.haltOrAbandon_none opened]
  | some st =>
    have off := h.unwatched i st opened
    rw [Body.haltOrAbandon_eq opened]
    split
    · exact (h.put ((st.beginHalt_watch cause).trans off)).raise of_event
    · split
      · exact h.put (st.abandon_watch.trans off)
      · exact h

theorem Body.LinkLostBelow.resynchronise (h : b.LinkLostBelow k) : (b.resynchronise true i).LinkLostBelow k := by
  obtain ⟨unwatched, events⟩ := h.modify (i := i) (f := Stream.resetSeq) fun _ => rfl
  exact ⟨unwatched, events⟩

theorem Body.LinkLostBelow.advanceAnswer (h : b.LinkLostBelow (i.val + 1)) :
    (b.advanceAnswer true i).LinkLostBelow (i.val + 1) := by
  cases opened : b.stream i with
  | none => rwa [Body.advanceAnswer_closed true opened]
  | some st =>
    have advanced : (b.put i st st.advanceAnswer).LinkLostBelow (i.val + 1) :=
      h.put (st.advanceAnswer_watch.trans (h.unwatched i st opened))
    rw [Body.advanceAnswer_open true opened]
    split
    · exact (advanced.haltOrAbandon (.inl rfl)).resynchronise
    · exact advanced

/-- The turn of stream `i` adds at most its own halt. -/
theorem Body.LinkLostBelow.loseLinkOne (h : b.LinkLostBelow i.val) :
    ((b.advanceAnswer true i).loseLinkOne i).LinkLostBelow (i.val + 1) := by
  obtain ⟨unwatched, first, rest, events, source, detail, halted, sorted, below, halts⟩ := h
  have start : b.LinkLostBelow (i.val + 1) := ⟨unwatched, first, rest, events, source, detail, halted, sorted,
    fun j hj => Nat.lt_succ_of_lt (below j hj), halts⟩
  exact (start.advanceAnswer.halt (.inr rfl)).modify fun st => st.abandon_watch

end

/-- What each stream's turn carries on from the streams below it, the turns of all carry to the end. -/
theorem foldl_finRange {α : Type} {n : Nat} {step : α → Fin n → α} {P : Nat → α → Prop} {a : α} (start : P 0 a)
    (next : ∀ (i : Fin n) a, P i.val a → P (i.val + 1) (step a i)) : P n ((List.finRange n).foldl step a) := by
  induction n with
  | zero => exact start
  | succ n ih =>
    rw [List.finRange_succ_last, List.foldl_append, List.foldl_map]
    exact next (Fin.last n) _ (ih fun i a => next i.castSucc a)

/-- The events of a link that a notice takes down: LINK_STATE, then the halts in increasing stream number (R9, R147). -/
theorem Body.loseLinkAfter_events {b : Body} (none_pending : b.events = [])
    (unwatched : ∀ i st, b.stream i = some st → st.watch = none) :
    ((b.raise none (.linkState .down (some .peerSilent))).loseLinkAfter
      (Body.advanceAnswer true)).LinkLostBelow 16 := by
  refine foldl_finRange (P := fun k b => Body.LinkLostBelow k b) ⟨unwatched, ?_⟩ fun i b h => h.loseLinkOne
  refine ⟨_, [], by rw [Body.raise_events, none_pending]; rfl, rfl, rfl, [], .nil, nofun, rfl, nofun⟩

/-- Settles O42: a cycle start by the notices it finds exhausted or not, and each stream by its answer condition. -/
theorem cycleStartsAdvanceAnswersAndNotices : Obligations.CycleStartsAdvanceAnswersAndNotices := by
  intro s n begun answered
  have answered_eq : answered = s.answered := rfl
  clear_value answered
  rw [answered_eq, State.startCycle_eq]
  refine ⟨?exhausted, ?advances, fun i => ⟨Body.advanceAnswer_closed true, ?none_sent⟩, ?conditions⟩
  case exhausted =>
    intro exhausted t started
    rw [if_pos (exhausted_iff.mpr exhausted)] at started
    subst started
    rw [State.leaveUpWith_streams, State.leaveUpWith_events]
    refine ⟨rfl, rfl, rfl, congrArg Body.streams rfl, fun none_pending unwatched => ?_⟩
    obtain ⟨-, first, rest, events, source, detail, halted, sorted, -, sources, details⟩ :=
      Body.loseLinkAfter_events (b := s.begun) none_pending unwatched
    refine ⟨halted, sorted, ?_, fun e mem => ?_⟩
    · rw [events, List.map_cons, source, sources]
    · rcases List.mem_cons.mp (events ▸ mem : e ∈ first :: rest) with rfl | mem
      · exact .inl detail
      · exact .inr (details e mem)
  case advances =>
    intro none_exhausted
    have goes_on : ¬s.answered.lt.notices.any Notice.exhausted = true := fun exhausted =>
      let ⟨x, mem, is_exhausted⟩ := exhausted_iff.mp exhausted
      none_exhausted x mem is_exhausted
    rw [if_neg goes_on]
    rfl
  case none_sent =>
    intro st opened none_sent
    rw [Body.advanceAnswer_open true opened, Stream.deadlinePasses_of_none none_sent, if_neg (by simp),
      Stream.advanceAnswer_of_none none_sent]
  case conditions =>
    intro i st k data mark b answer opened found sent next flight count seq
    have advances : ¬(st.deadlinePasses = true ∧ 16 ≤ st.seq.unanswered + 1) →
        s.body.advanceAnswer true i = s.body.put i st st.advanceAnswer := fun early =>
      (Body.advanceAnswer_open true opened).trans (if_neg early)
    have passes_iff := Stream.deadlinePasses_iff found sent
    have advanced := Stream.advanceAnswer_eq found sent
    refine ⟨?awaiting0, ?counted, ?deferred, ?due, ?waited, ?halts⟩
    case awaiting0 =>
      rintro rfl
      rw [advances fun h => absurd (passes_iff.mp h.1) nofun, advanced]
      rfl
    case counted =>
      rintro rfl few
      have unanswered : st.seq.unanswered = count := by rw [seq]; rfl
      rw [advances (by omega), Stream.advanceAnswer_missed found sent seq]
      rfl
    case deferred =>
      rintro rfl
      rw [advances fun h => absurd (passes_iff.mp h.1) nofun, advanced]
      rfl
    case due =>
      rintro rfl
      rw [advances fun h => absurd (passes_iff.mp h.1) nofun, advanced]
    case waited =>
      rintro rfl many halting rfl
      rw [Body.advanceAnswer_ends_wait opened found sent seq many halting]
      refine ⟨_, (Body.resynchronise_stream ..).trans (congrArg _ (Body.put_stream_self ..)), ?_,
        Stream.missedStored_abandon_buffer found, Stream.missedStored_abandon_discarded found,
        Body.resynchronise_notice .., fun e mem ⟨cause, halted⟩ => ?_⟩
      · rw [Stream.missedStored_abandon found]
        rfl
      · have of_put : ∀ {b : Body} {old new : Stream}, e ∈ (b.put i old new).events → e ∈ b.events := fun mem =>
          (Body.mem_put_events mem).resolve_left fun ⟨c, watch⟩ => absurd (halted.symm.trans watch) nofun
        exact of_put (of_put (Body.resynchronise_events .. ▸ mem))
    case halts =>
      rintro rfl many may
      refine ⟨_, Body.advanceAnswer_halts opened found sent seq many may, rfl, rfl, ?_, ?_, ?_⟩
      · exact (congrArg Stream.sentIndex (Stream.beginHalt_abandons rfl _)).trans (Stream.abandon_sentIndex _)
      · exact Stream.initial_of_fixed ((Stream.fixed_beginHalt _ .noAnswer).trans (Stream.missedStored_fixed st))
      · rw [Body.advanceAnswer_sixteenth opened found sent seq many]
        exact Body.resynchronise_notice ..

end Sys2Proof.Machine
end

section
/-! SUPPORT. Every command keeps the laws of the link, the bring-up and the cycle engine (chapters 6 and 8). The laws
are read link state by link state: what the Bring-up and Profile Unit and the Cycle Engine hold in each. -/

namespace Sys2Proof.Machine

open Sys2Proof Host

/-! ### What each link state holds -/

/-- A chunk in progress has its answer timer running and has been sent 1 to 8 times (R139). -/
def Outgoing.lawful (o : Outgoing) : Prop := o.timer.isSome = !o.done ∧ 1 ≤ o.sends ∧ o.sends ≤ 8

/-- No bring-up is under way: no LINK_UP is pending, no timer runs and there is no exchange (R142, R143). -/
structure BringUp.Idle (bp : BringUp) : Prop where
  pending : bp.pendingLinkUp = none
  bringUpTimer : bp.bringUpEnds = none
  helloTimer : bp.helloEnds = none
  peerHello : bp.peerHello = none
  outgoing : bp.outgoing = none
  incoming : bp.incoming = none

/-- A LINK_UP is pending and its bring-up timer runs; no peer profile is held yet (R133, R136). -/
structure BringUp.Pending (bp : BringUp) : Prop where
  pending : bp.pendingLinkUp.isSome = true
  bringUpTimer : bp.bringUpEnds.isSome = true
  peer : bp.peerProfile = none

/-- The two exchanges are there (R138, R139). -/
structure BringUp.Exchanges (bp : BringUp) : Prop where
  peerHello : bp.peerHello.isSome = true
  outgoing : ∃ o, bp.outgoing = some o ∧ o.lawful
  incoming : bp.incoming.isSome = true

/-- What the Bring-up and Profile Unit holds in its link state (R133, R135 to R139, R142, R143, R146). -/
def BringUp.lawful (bp : BringUp) : Prop :=
  match bp.link with
  | .down => bp.Idle ∧ bp.peerProfile = none
  | .calling => bp.Pending ∧ bp.helloEnds.isSome = true ∧ bp.peerHello = none ∧ bp.outgoing = none ∧ bp.incoming = none
  | .exchanging => bp.Pending ∧ bp.Exchanges ∧ bp.signal = true
  | .up => bp.Idle ∧ bp.peerProfile.isSome = true ∧ bp.signal = true

/-- The engine outside UP: nothing is timed, and the sync state is UNLOCKED or LOST with its count (R94, R103, R106). -/
structure CycleEngine.Stopped (e : CycleEngine) : Prop where
  periodTimer : e.periodEnds = none
  echoSeen : e.echoSeen = none
  expected : e.expected = none
  sync : (e.sync = .unlocked ∧ e.coasting = 0) ∨ (e.sync = .lost ∧ e.coasting = 7)

/-- The leader's engine in UP (R96, R97). -/
structure CycleEngine.Leads (e : CycleEngine) : Prop where
  role : e.role = some .leader
  periodTimer : e.periodEnds.isSome = true
  echoSeen : e.echoSeen.isSome = true
  expected : e.expected = none
  sync : e.sync = .locked ∧ e.coasting = 0

/-- The follower's engine in UP (R100 to R102). -/
structure CycleEngine.Follows (e : CycleEngine) : Prop where
  role : e.role = some .follower
  periodTimer : e.periodEnds = none
  echoSeen : e.echoSeen = none
  expected : e.expected.isSome = true
  marked : e.firstMarker = false
  sync : (e.sync = .locked ∧ e.coasting = 0) ∨ (e.sync = .coasting ∧ 1 ≤ e.coasting ∧ e.coasting ≤ 7)

/-- What the Cycle Engine holds in a link state (R94, R97, R107). -/
def CycleEngine.lawful (link : LinkState) (e : CycleEngine) : Prop :=
  match link with
  | .down => e.Stopped ∧ (e.echoMiss < 16 ∨ e.echoMiss = 16)
  | .calling => e.Stopped ∧ e.role.isSome = true ∧ e.period.isSome = true ∧ e.echoMiss < 16
  | .exchanging => e.Stopped ∧ e.role.isSome = true ∧ e.period.isSome = true ∧ e.echoMiss < 16
  | .up => (e.Leads ∨ e.Follows) ∧ e.period = some e.inForce ∧ e.echoMiss < 16

section

variable {s t : State}

/-- The laws of the bring-up, link state by link state. -/
theorem LinkLaw.bringUp (l : LinkLaw s) : s.bp.lawful := by
  obtain ⟨peer, pending, bringUpTimer, helloTimer, callingTimer, peerHello, outgoing, incoming, chunk, -, -, -, -, -, -,
    -, -, -, -, -, heard⟩ := l
  have held : ∀ {α : Type} {o : Option α}, o.isSome = true → ∃ x, o = some x := Option.isSome_iff_exists.mp
  unfold BringUp.lawful
  cases link : s.bp.link <;>
    simp only [State.isUp, LinkState.bringing, link] at * <;>
    simp [beq_eq_decide] at *
  case down => exact ⟨⟨pending, bringUpTimer, helloTimer, peerHello, outgoing, incoming⟩, peer⟩
  case calling => exact ⟨⟨pending, bringUpTimer, peer⟩, callingTimer, peerHello, outgoing, incoming⟩
  case exchanging =>
    obtain ⟨o, present⟩ := held outgoing
    exact ⟨⟨pending, bringUpTimer, peer⟩, ⟨peerHello, ⟨o, present, chunk o present⟩, incoming⟩, heard⟩
  case up => exact ⟨⟨pending, bringUpTimer, helloTimer, peerHello, outgoing, incoming⟩, peer, heard⟩

/-- The laws of the engine, link state by link state. -/
theorem LinkLaw.engine (l : LinkLaw s) : s.ce.lawful s.bp.link := by
  obtain ⟨-, -, -, -, -, -, -, -, -, role, periodTimer, echoSeen, expected, marked, inForce, synced, unsynced, coasting,
    echoMiss, -, -⟩ := l
  have stopped (down : s.isUp = false) : s.ce.Stopped := by
    rw [down, Bool.false_and, Option.isSome_eq_false_iff, Option.isNone_iff_eq_none] at periodTimer echoSeen expected
    refine ⟨periodTimer, echoSeen, expected, (unsynced down).imp (fun sync => ?_) fun sync => ?_⟩ <;>
      · rw [sync] at coasting
        exact ⟨sync, coasting⟩
  unfold CycleEngine.lawful
  cases link : s.bp.link <;> simp [State.isUp, link, beq_eq_decide] at role echoMiss stopped
  case down => exact ⟨stopped, echoMiss⟩
  case calling => exact ⟨stopped, role.1, role.2, echoMiss⟩
  case exchanging => exact ⟨stopped, role.1, role.2, echoMiss⟩
  case up =>
    have up : s.isUp = true := (State.isUp_iff s).mpr link
    simp only [up, Bool.true_and, forall_const] at periodTimer echoSeen expected marked inForce synced
    refine ⟨?_, inForce, echoMiss⟩
    obtain ⟨mine, is_mine⟩ := Option.isSome_iff_exists.mp role.1
    cases mine <;> simp [is_mine, beq_eq_decide] at periodTimer echoSeen expected marked synced
    case leader =>
      rw [synced] at coasting
      exact .inl ⟨is_mine, periodTimer, echoSeen, expected, synced, coasting⟩
    case follower =>
      refine .inr ⟨is_mine, periodTimer, echoSeen, expected, marked, synced.imp (fun sync => ?_) fun sync => ?_⟩ <;>
        · rw [sync] at coasting
          exact ⟨sync, coasting⟩

/-- The laws of the link say of each link state what the two blocks hold in it, and that the signal field follows the
input. -/
theorem linkLaw_iff : LinkLaw s ↔ s.bp.lawful ∧ s.ce.lawful s.bp.link ∧ (s.fn ≠ .faulted → s.bp.signal = s.lsig) := by
  refine ⟨fun l => ⟨l.bringUp, l.engine, l.signal⟩, fun ⟨bringUp, engine, signal⟩ => ?_⟩
  unfold BringUp.lawful at bringUp
  unfold CycleEngine.lawful at engine
  cases link : s.bp.link <;> rw [link] at bringUp engine
  case' down =>
    obtain ⟨⟨⟩, peer⟩ := bringUp
    obtain ⟨⟨periodTimer, echoSeen, expected, ⟨sync, coasting⟩ | ⟨sync, coasting⟩⟩, echoMiss⟩ := engine
  case' calling =>
    obtain ⟨⟨⟩, helloTimer, peerHello, outgoing, incoming⟩ := bringUp
    obtain ⟨⟨periodTimer, echoSeen, expected, ⟨sync, coasting⟩ | ⟨sync, coasting⟩⟩, role, period, echoMiss⟩ := engine
  case' exchanging =>
    obtain ⟨⟨⟩, ⟨peerHello, ⟨o, outgoing, timer, sent, few⟩, incoming⟩, heard⟩ := bringUp
    obtain ⟨⟨periodTimer, echoSeen, expected, ⟨sync, coasting⟩ | ⟨sync, coasting⟩⟩, role, period, echoMiss⟩ := engine
  case' up =>
    obtain ⟨⟨⟩, peer, heard⟩ := bringUp
    obtain ⟨⟨role, periodTimer, echoSeen, expected, sync, coasting⟩ |
      ⟨role, periodTimer, echoSeen, expected, marked, ⟨sync, coasting⟩ | ⟨sync, coasting⟩⟩, inForce, echoMiss⟩ := engine
  all_goals
    constructor
    case signal => exact signal
    all_goals simp [State.isUp, LinkState.bringing, beq_eq_decide, *]

/-! ### The laws in each link state -/

/-- The signal field follows the input, outside FAULTED (R146, R182). -/
def State.signalled (s : State) : Prop := s.fn ≠ .faulted → s.bp.signal = s.lsig

theorem linkLaw_down (link : s.bp.link = .down) : LinkLaw s ↔
    (s.bp.Idle ∧ s.bp.peerProfile = none) ∧ (s.ce.Stopped ∧ (s.ce.echoMiss < 16 ∨ s.ce.echoMiss = 16)) ∧
      s.signalled := by
  rw [linkLaw_iff, BringUp.lawful, link]
  rfl

theorem linkLaw_calling (link : s.bp.link = .calling) : LinkLaw s ↔
    (s.bp.Pending ∧ s.bp.helloEnds.isSome = true ∧ s.bp.peerHello = none ∧ s.bp.outgoing = none ∧
      s.bp.incoming = none) ∧
    (s.ce.Stopped ∧ s.ce.role.isSome = true ∧ s.ce.period.isSome = true ∧ s.ce.echoMiss < 16) ∧ s.signalled := by
  rw [linkLaw_iff, BringUp.lawful, link]
  rfl

theorem linkLaw_exchanging (link : s.bp.link = .exchanging) : LinkLaw s ↔
    (s.bp.Pending ∧ s.bp.Exchanges ∧ s.bp.signal = true) ∧
    (s.ce.Stopped ∧ s.ce.role.isSome = true ∧ s.ce.period.isSome = true ∧ s.ce.echoMiss < 16) ∧ s.signalled := by
  rw [linkLaw_iff, BringUp.lawful, link]
  rfl

theorem linkLaw_up (link : s.bp.link = .up) : LinkLaw s ↔
    (s.bp.Idle ∧ s.bp.peerProfile.isSome = true ∧ s.bp.signal = true) ∧
    ((s.ce.Leads ∨ s.ce.Follows) ∧ s.ce.period = some s.ce.inForce ∧ s.ce.echoMiss < 16) ∧ s.signalled := by
  rw [linkLaw_iff, BringUp.lawful, link]
  rfl

/-- The laws speak of the link, the engine and the signal alone, and of FAULTED. -/
theorem LinkLaw.of_same (l : LinkLaw s) (same : (t.bp, t.ce, t.lsig) = (s.bp, s.ce, s.lsig))
    (fn : t.fn ≠ .faulted → s.fn ≠ .faulted) : LinkLaw t := by
  simp only [Prod.mk.injEq] at same
  obtain ⟨bp, ce, lsig⟩ := same
  obtain ⟨bringUp, engine, signal⟩ := linkLaw_iff.mp l
  exact linkLaw_iff.mpr ⟨bp ▸ bringUp, bp ▸ ce ▸ engine, fun running => bp ▸ lsig ▸ signal (fn running)⟩

theorem LinkLaw.onBody (l : LinkLaw s) (f : Body → Body) : LinkLaw (s.onBody f) := l.of_same rfl id

/-- No law speaks of the cycle number or of the local profile. -/
theorem LinkLaw.renumber (l : LinkLaw s) (n : CycleNum) (b : Body) :
    LinkLaw { s with ce := { s.ce with cycle := n }, body := b } := { l with }

theorem LinkLaw.reload (l : LinkLaw s) (profile : List Byte) :
    LinkLaw { s with bp := { s.bp with localProfile := profile } } := { l with }

/-- Outside UP the engine is stopped and no peer profile is held. -/
theorem LinkLaw.outside_up (l : LinkLaw s) (link : s.bp.link ≠ .up) : s.ce.Stopped ∧ s.bp.peerProfile = none := by
  cases h : s.bp.link with
  | down =>
    obtain ⟨⟨-, peer⟩, ⟨stopped, -⟩, -⟩ := (linkLaw_down h).mp l
    exact ⟨stopped, peer⟩
  | calling =>
    obtain ⟨⟨pending, -⟩, ⟨stopped, -⟩, -⟩ := (linkLaw_calling h).mp l
    exact ⟨stopped, pending.peer⟩
  | exchanging =>
    obtain ⟨⟨pending, -⟩, ⟨stopped, -⟩, -⟩ := (linkLaw_exchanging h).mp l
    exact ⟨stopped, pending.peer⟩
  | up => exact absurd h link

/-! ### Faults, the settling and the end of a stop -/

theorem LinkLaw.enterFault (l : LinkLaw s) (code : FaultCode) : LinkLaw (s.enterFault code) :=
  l.of_same rfl fun running => absurd (s.faulted_fn code) running

theorem LinkLaw.stopEnds (l : LinkLaw s) (stopping : s.fn = .stopping) : LinkLaw s.stopEnds :=
  l.of_same rfl fun _ => FnState.ne_faulted (.inr stopping)

theorem LinkLaw.settle (l : LinkLaw s) : LinkLaw s.settle := by
  rcases s.settle_cases with ⟨-, -, h⟩ | ⟨-, h⟩ | ⟨stopping, h⟩ <;> rw [h]
  · exact l
  · exact l.onBody _
  · exact (l.onBody _).stopEnds ((s.onBody_fn _).trans stopping)

/-- An event keeps the laws if its own effect does outside FAULTED. -/
theorem LinkLaw.event {effect : State → State} (l : LinkLaw s) (keeps : s.fn ≠ .faulted → LinkLaw (effect s)) :
    LinkLaw (s.event effect) := by
  unfold State.event
  split
  · exact l
  · next running => exact (keeps running).settle

/-! ### Going DOWN -/

theorem LinkLaw.bringUpFails (l : LinkLaw s) (down : s.bp.link ≠ .up) (cause : DownCause) (status : Status) :
    LinkLaw (s.bringUpFails cause status) := by
  obtain ⟨stopped, peer⟩ := l.outside_up down
  exact (linkLaw_down rfl).mpr
    ⟨⟨⟨rfl, rfl, rfl, rfl, rfl, rfl⟩, peer⟩, ⟨stopped, l.echoMiss.imp_right And.right⟩, l.signal⟩

/-- An engine that stops with a loss of sync was LOST already (R103, R106). -/
theorem CycleEngine.stop_stopped {e : CycleEngine} {cause : DownCause}
    (lost : cause = .syncLost → e.sync = .lost ∧ e.coasting = 7) : (e.stop cause).Stopped := by
  refine ⟨rfl, rfl, rfl, ?_⟩
  by_cases h : cause = .syncLost
  · exact .inr (by simpa [CycleEngine.stop, h] using lost h)
  · exact .inl (by simp [CycleEngine.stop, h])

/-- The loss of the link needs of the part that leaves UP no more than this (R106, R147). -/
theorem linkLaw_leaveUpWith {streams : Body → Body} {cause : DownCause} (idle : s.bp.Idle)
    (lost : cause = .syncLost → s.ce.sync = .lost ∧ s.ce.coasting = 7) (misses : s.ce.echoMiss ≤ 16)
    (signal : s.signalled) : LinkLaw (s.leaveUpWith streams cause) := by
  refine (linkLaw_down rfl).mpr ⟨⟨⟨idle.1, idle.2, idle.3, idle.4, idle.5, idle.6⟩, rfl⟩,
    ⟨CycleEngine.stop_stopped lost, ?_⟩, signal⟩
  show (if cause = .peerSilent then s.ce.echoMiss else 0) < 16 ∨
    (if cause = .peerSilent then s.ce.echoMiss else 0) = 16
  split
  · exact Nat.lt_or_eq_of_le misses
  · exact .inl (by decide)

theorem LinkLaw.leaveUpWith {cause : DownCause} (l : LinkLaw s) (up : s.bp.link = .up) (streams : Body → Body)
    (synced : cause ≠ .syncLost) : LinkLaw (s.leaveUpWith streams cause) := by
  obtain ⟨⟨idle, -⟩, ⟨-, -, misses⟩, signal⟩ := (linkLaw_up up).mp l
  exact linkLaw_leaveUpWith idle (absurd · synced) misses.le signal

theorem LinkLaw.leaveUp {cause : DownCause} (l : LinkLaw s) (up : s.bp.link = .up) (synced : cause ≠ .syncLost) :
    LinkLaw (s.leaveUp cause) := l.leaveUpWith up _ synced

theorem State.takeDown_down (cause : DownCause) (status : Status) (s : State) :
    (s.takeDown cause status).bp.link = .down := by
  unfold State.takeDown
  split
  · assumption
  all_goals rfl

theorem LinkLaw.takeDown {cause : DownCause} (l : LinkLaw s) (synced : cause ≠ .syncLost) (status : Status) :
    LinkLaw (s.takeDown cause status) := by
  unfold State.takeDown
  split
  · exact l
  · next link => exact l.bringUpFails (by simp [link]) cause status
  · next link => exact l.bringUpFails (by simp [link]) cause status
  · next link => exact l.leaveUp link synced

theorem LinkLaw.takeDownHere (l : LinkLaw s) (status : Status) : LinkLaw (s.takeDownHere status) := by
  have down := l.takeDown (cause := .requested) nofun status
  unfold State.takeDownHere
  dsimp only
  split
  · exact down.onBody _
  · exact down

/-! ### Cycles, markers and echoes -/

theorem LinkLaw.startCycle (l : LinkLaw s) (up : s.bp.link = .up) (n : CycleNum) : LinkLaw (s.startCycle n) := by
  rw [State.startCycle_eq]
  split
  · exact (l.renumber n s.begun).leaveUpWith up _ nofun
  · exact l.renumber n _

/-- The engine that reaches UP leads or follows (R96, R100, R107). -/
theorem CycleEngine.reachUp_lawful {e : CycleEngine} {role : Role} {now : Nat} {period : Period}
    (expected : e.role = some role) : (e.reachUp now period).Leads ∨ (e.reachUp now period).Follows := by
  cases role
  · exact .inl (by constructor <;> simp [CycleEngine.reachUp, expected])
  · exact .inr (by constructor <;> simp [CycleEngine.reachUp, expected])

theorem LinkLaw.reachUp (l : LinkLaw s) (exchanging : s.bp.link = .exchanging) (n : CycleNum) :
    LinkLaw (s.reachUp n) := by
  obtain ⟨⟨-, -, heard⟩, ⟨-, role, period, misses⟩, signal⟩ := (linkLaw_exchanging exchanging).mp l
  obtain ⟨mine, role⟩ := Option.isSome_iff_exists.mp role
  obtain ⟨p, period⟩ := Option.isSome_iff_exists.mp period
  rw [State.reachUp_eq, period, Option.getD_some]
  refine LinkLaw.startCycle ((linkLaw_up (s := { s with bp := s.bp.reachUp, ce := s.ce.reachUp s.now p, body := _ })
    rfl).mpr ⟨⟨⟨rfl, rfl, rfl, rfl, rfl, rfl⟩, rfl, heard⟩, ⟨CycleEngine.reachUp_lawful role, period, ?_⟩, signal⟩)
    rfl n
  show (if s.ce.role == some .leader then 0 else s.ce.echoMiss) < 16
  split
  · decide
  · exact misses

/-- A follower in UP takes a marker LOCKED again, with the next one expected a period on (R101). -/
theorem LinkLaw.retimed (l : LinkLaw s) (up : s.bp.link = .up) (follower : s.ce.role = some .follower) (m : CycleNum) :
    LinkLaw (s.retimed m) := by
  obtain ⟨bringUp, ⟨leads | follows, inForce, misses⟩, signal⟩ := (linkLaw_up up).mp l
  · exact absurd (leads.role.symm.trans follower) nofun
  · exact (linkLaw_up (s := s.retimed m) up).mpr ⟨bringUp,
      ⟨.inr { follows with expected := rfl, sync := .inl ⟨rfl, rfl⟩ }, inForce, misses⟩, signal⟩

theorem LinkLaw.markerArrives (l : LinkLaw s) (m : CycleNum) : LinkLaw (s.markerArrives m) := by
  unfold State.markerArrives
  split
  · next follower =>
    split
    · exact l
    · exact l
    · next exchanging =>
      split
      · exact (l.onBody _).reachUp exchanging m
      · exact l
    · next up =>
      have again := l.retimed up follower m
      split
      · exact l
      · rw [State.markerInUp_eq]
        split
        · exact again.startCycle up m
        · split
          · exact again
          · exact (again.onBody _).startCycle up m
  · exact l

theorem LinkLaw.echoArrives (l : LinkLaw s) (m : CycleNum) : LinkLaw (s.echoArrives m) := by
  unfold State.echoArrives
  split
  · next acts =>
    obtain ⟨leader, up, -⟩ := acts
    exact { l with echoSeen := by simp [State.isUp, up, leader] }
  · exact l

/-! ### The engine's timers -/

/-- The leader goes on to the next cycle with fewer than 16 misses in a row (R97). -/
theorem LinkLaw.judged (l : LinkLaw s) (up : s.bp.link = .up) (leader : s.ce.role = some .leader) (t : Nat)
    {misses : Nat} (few : misses < 16) : LinkLaw (s.judged t misses (some false)) := by
  obtain ⟨bringUp, ⟨leads | follows, inForce, -⟩, signal⟩ := (linkLaw_up up).mp l
  · exact (linkLaw_up (s := s.judged t misses (some false)) up).mpr
      ⟨bringUp, ⟨.inl { leads with periodTimer := rfl, echoSeen := rfl }, inForce, few⟩, signal⟩
  · exact absurd (leader.symm.trans follows.role) nofun

theorem CycleEngine.missesNow_le (e : CycleEngine) : e.missesNow ≤ e.echoMiss + 1 := by
  unfold CycleEngine.missesNow
  split
  · exact Nat.zero_le _
  · exact Nat.le_refl _

theorem LinkLaw.periodExpires (l : LinkLaw s) : LinkLaw s.periodExpires := by
  by_cases acts : ∃ t, s.ce.periodEnds = some t ∧ t ≤ s.now ∧ s.ce.role = some .leader ∧ s.bp.link = .up
  · obtain ⟨t, runs, come, leader, up⟩ := acts
    obtain ⟨⟨idle, -⟩, ⟨-, -, misses⟩, signal⟩ := (linkLaw_up up).mp l
    have few := s.ce.missesNow_le
    rw [State.periodExpires_due leader up runs come]
    split
    · exact linkLaw_leaveUpWith (s := s.judged t s.ce.missesNow s.ce.echoSeen) idle nofun (few.trans misses) signal
    · next fewer => exact (l.judged up leader t (Nat.not_le.mp fewer)).startCycle up _
  · rw [State.periodExpires_void]
    · exact l
    · by_contra acting
      push Not at acting
      obtain ⟨leader, up, t, runs, come⟩ := acting
      exact acts ⟨t, runs, come, leader, up⟩

/-- The follower coasts on, for the seventh time at most (R102). -/
theorem LinkLaw.coasts (l : LinkLaw s) (up : s.bp.link = .up) (follower : s.ce.role = some .follower) (t : Nat)
    (few : ¬(s.ce.sync = .coasting ∧ 7 ≤ s.ce.coasting)) : LinkLaw (s.coasts t) := by
  obtain ⟨bringUp, ⟨leads | follows, inForce, misses⟩, signal⟩ := (linkLaw_up up).mp l
  · exact absurd (leads.role.symm.trans follower) nofun
  · refine (linkLaw_up (s := s.coasts t) up).mpr ⟨bringUp,
      ⟨.inr { follows with expected := rfl, sync := .inr ⟨rfl, Nat.le_add_left .., ?_⟩ }, inForce, misses⟩, signal⟩
    show s.ce.coasting + 1 ≤ 7
    rcases follows.sync with ⟨-, zero⟩ | ⟨coasting, -⟩
    · omega
    · have := not_and.mp few coasting
      omega

theorem LinkLaw.deadlinePasses (l : LinkLaw s) : LinkLaw s.deadlinePasses := by
  by_cases acts : ∃ t, s.ce.expected = some t ∧ t + s.ce.inForce.grace ≤ s.now ∧ s.ce.role = some .follower ∧
      s.bp.link = .up
  · obtain ⟨t, runs, come, follower, up⟩ := acts
    obtain ⟨⟨idle, -⟩, ⟨-, -, misses⟩, signal⟩ := (linkLaw_up up).mp l
    rw [State.deadlinePasses_due follower up runs come]
    split
    · next last =>
      have seven : s.ce.coasting ≤ 7 := by
        have counted := l.coasting
        rw [last.1] at counted
        exact counted.2
      exact linkLaw_leaveUpWith (s := { s with ce := { s.ce with sync := .lost } }) idle
        (fun _ => ⟨rfl, Nat.le_antisymm seven last.2⟩) misses.le signal
    · next few => exact (l.coasts up follower t few).startCycle up _
  · rw [State.deadlinePasses_void]
    · exact l
    · by_contra acting
      push Not at acting
      obtain ⟨follower, up, t, runs, come⟩ := acting
      exact acts ⟨t, runs, come, follower, up⟩

/-! ### Calling and the exchange -/

theorem LinkLaw.helloDue (l : LinkLaw s) : LinkLaw s.helloDue := by
  unfold State.helloDue
  split
  · exact l
  · exact l.onBody _

theorem LinkLaw.callPeer (l : LinkLaw s) (down : s.bp.link = .down) (id : Nat) (role : Role) (period : Period)
    (timeout : Nat) : LinkLaw (s.callPeer id role period timeout) := by
  obtain ⟨⟨idle, peer⟩, ⟨stopped, -⟩, signal⟩ := (linkLaw_down down).mp l
  refine LinkLaw.onBody (LinkLaw.helloDue ((linkLaw_calling rfl).mpr ?_)) _
  exact ⟨⟨⟨rfl, rfl, peer⟩, rfl, idle.peerHello, idle.outgoing, idle.incoming⟩,
    ⟨{ stopped with sync := .inl ⟨rfl, rfl⟩ }, rfl, rfl, Nat.zero_lt_succ _⟩, signal⟩

theorem LinkLaw.helloExpires (l : LinkLaw s) : LinkLaw s.helloExpires := by
  unfold State.helloExpires
  split
  · next t runs =>
    split
    · refine LinkLaw.helloDue { l with helloTimer := fun _ => l.helloTimer ?_, callingTimer := fun _ => rfl }
      rw [runs, Option.isSome_some]
    · exact l
  · exact l

theorem LinkLaw.bringUpExpires (l : LinkLaw s) : LinkLaw s.bringUpExpires := by
  unfold State.bringUpExpires
  split
  · next t runs =>
    split
    · refine l.bringUpFails (fun up => ?_) .timeout .timeout
      obtain ⟨⟨idle, -⟩, -⟩ := (linkLaw_up up).mp l
      exact absurd (runs.symm.trans idle.bringUpTimer) nofun
    · exact l
  · exact l

/-- A chunk goes out for the first to the eighth time (R139). -/
theorem LinkLaw.sendChunk (l : LinkLaw s) (exchanging : s.bp.link = .exchanging) (k : Nat) {sends : Nat}
    (some_sent : 1 ≤ sends) (few : sends ≤ 8) : LinkLaw (s.sendChunk k sends) := by
  obtain ⟨⟨pending, exchanges, heard⟩, engine, signal⟩ := (linkLaw_exchanging exchanging).mp l
  exact (linkLaw_exchanging (s := s.sendChunk k sends) exchanging).mpr ⟨⟨{ pending with },
    { exchanges with outgoing := ⟨_, rfl, rfl, some_sent, few⟩ }, heard⟩, engine, signal⟩

/-- The part in which both exchanges have begun, chunk 0 of the local profile due (R138, R139). -/
def State.exchangesBegun (h : PeerHello) (s : State) : State :=
  State.sendChunk 0 1 { s with
    bp := { s.bp with
      link := .exchanging, peerHello := some h, incoming := some { next := 0, bytes := [], done := false }
      helloEnds := match s.bp.helloEnds with
        | some t => some t
        | none => some (s.now + 1000) }
    body := s.body.dropDue ControlFrame.isChunk }

theorem State.beginExchange_eq (h : PeerHello) (s : State) : s.beginExchange h =
    if s.bp.link = .calling then (s.exchangesBegun h).withEvent none (.linkState .exchanging none)
    else s.exchangesBegun h := rfl

theorem LinkLaw.beginExchange (l : LinkLaw s) (bringing : s.bp.link = .calling ∨ s.bp.link = .exchanging)
    (heard : s.bp.signal = true) (h : PeerHello) : LinkLaw (s.beginExchange h) := by
  obtain ⟨pending, engine⟩ : s.bp.Pending ∧ s.ce.lawful .exchanging := by
    rcases bringing with calling | exchanging
    · obtain ⟨⟨pending, -⟩, engine, -⟩ := (linkLaw_calling calling).mp l
      exact ⟨pending, engine⟩
    · obtain ⟨⟨pending, -⟩, engine, -⟩ := (linkLaw_exchanging exchanging).mp l
      exact ⟨pending, engine⟩
  have begun : LinkLaw (s.exchangesBegun h) := (linkLaw_exchanging rfl).mpr
    ⟨⟨{ pending with }, ⟨rfl, ⟨_, rfl, rfl, Nat.le_refl 1, Nat.one_le_ofNat⟩, rfl⟩, heard⟩, engine, l.signal⟩
  rw [State.beginExchange_eq]
  split
  · exact begun.onBody _
  · exact begun

theorem LinkLaw.helloChecked (l : LinkLaw s) (bringing : s.bp.link = .calling ∨ s.bp.link = .exchanging)
    (heard : s.bp.signal = true) (h : PeerHello) : LinkLaw (s.helloChecked h) := by
  have down : s.bp.link ≠ .up := by rcases bringing with link | link <;> simp [link]
  unfold State.helloChecked
  split
  · exact l.bringUpFails down _ _
  split
  · exact l.bringUpFails down _ _
  split
  · exact l.bringUpFails down _ _
  · exact l.beginExchange bringing heard h

theorem LinkLaw.helloArrives (l : LinkLaw s) (heard : s.bp.signal = true) (h : PeerHello) :
    LinkLaw (s.helloArrives h) := by
  unfold State.helloArrives
  split
  · exact l
  · next calling => exact l.helloChecked (.inl calling) heard h
  · next exchanging =>
    split
    · exact l
    · exact l.helloChecked (.inr exchanging) heard h
  · next up => exact l.leaveUp up nofun

theorem LinkLaw.stopHello (l : LinkLaw s) (exchanging : s.bp.link = .exchanging) : LinkLaw s.stopHello :=
  { l with helloTimer := nofun, callingTimer := fun calling => absurd (exchanging.symm.trans calling) nofun }

theorem LinkLaw.exchangeDone (l : LinkLaw s) (exchanging : s.bp.link = .exchanging) : LinkLaw s.exchangeDone := by
  unfold State.exchangeDone
  split
  · exact l.reachUp exchanging 0
  · exact l

/-- An outgoing exchange that is done has no answer timer (R139). -/
theorem LinkLaw.chunkAcked (l : LinkLaw s) (exchanging : s.bp.link = .exchanging) {o : Outgoing}
    (outgoing : s.bp.outgoing = some o) : LinkLaw (s.chunkAcked o) := by
  unfold State.chunkAcked
  split
  · exact l.sendChunk exchanging _ (Nat.le_refl 1) Nat.one_le_ofNat
  · refine LinkLaw.exchangeDone ?_ exchanging
    obtain ⟨⟨pending, exchanges, heard⟩, engine, signal⟩ := (linkLaw_exchanging exchanging).mp l
    obtain ⟨-, sent, few⟩ := l.chunk o outgoing
    exact (linkLaw_exchanging (s := { s with bp := { s.bp with outgoing := some _ } }) exchanging).mpr
      ⟨⟨{ pending with }, { exchanges with outgoing := ⟨_, rfl, rfl, sent, few⟩ }, heard⟩, engine, signal⟩

theorem LinkLaw.ackArrives (l : LinkLaw s) (number : Byte) : LinkLaw (s.ackArrives number) := by
  unfold State.ackArrives
  split
  · next exchanging =>
    have quiet := l.stopHello exchanging
    split
    · next outgoing =>
      split
      · exact quiet.chunkAcked exchanging outgoing
      · exact quiet
    · exact quiet
  · exact l

theorem LinkLaw.answerExpires (l : LinkLaw s) : LinkLaw s.answerExpires := by
  unfold State.answerExpires
  split
  · next o outgoing =>
    have exchanging : s.bp.link = .exchanging := by simpa [outgoing] using l.outgoing
    split
    · split
      · split
        · next few => exact l.sendChunk exchanging _ (Nat.le_add_left ..) few
        · exact l.bringUpFails (by simp [exchanging]) _ _
      · exact l
    · exact l
  · exact l

/-- The incoming exchange moves on (R140). -/
theorem LinkLaw.received (l : LinkLaw s) (exchanging : s.bp.link = .exchanging) (x : Incoming) :
    LinkLaw { s with bp := { s.bp with incoming := some x } } := by
  obtain ⟨⟨pending, exchanges, heard⟩, engine, signal⟩ := (linkLaw_exchanging exchanging).mp l
  exact (linkLaw_exchanging (s := { s with bp := { s.bp with incoming := some x } }) exchanging).mpr
    ⟨⟨{ pending with }, { exchanges with incoming := rfl }, heard⟩, engine, signal⟩

theorem LinkLaw.chunkMeasured (l : LinkLaw s) (exchanging : s.bp.link = .exchanging) (h : PeerHello) (x : Incoming)
    (number : Byte) (bytes : List Byte) : LinkLaw (s.chunkMeasured h x number bytes) := by
  have failed := l.bringUpFails (by simp [exchanging]) .profileFailed .profileFailed
  unfold State.chunkMeasured
  dsimp only
  split
  · exact l.onBody _
  split
  · exact failed
  split
  · unfold State.lastChunk
    split
    · exact ((l.received exchanging _).onBody _).exchangeDone exchanging
    · exact failed
  · exact (l.received exchanging _).onBody _

theorem LinkLaw.chunkArrives (l : LinkLaw s) (number : Byte) (bytes : List Byte) :
    LinkLaw (s.chunkArrives number bytes) := by
  unfold State.chunkArrives
  split
  · exact l
  · exact l
  · next exchanging =>
    split
    · exact (l.stopHello exchanging).chunkMeasured exchanging _ _ number bytes
    · exact l.stopHello exchanging
  · exact l.onBody _

theorem LinkLaw.farewellArrives (l : LinkLaw s) : LinkLaw s.farewellArrives := by
  unfold State.farewellArrives
  split
  · exact l
  · exact l
  · next exchanging => exact l.bringUpFails (by simp [exchanging]) _ _
  · next up => exact l.leaveUp up nofun

/-! ### The line signal -/

/-- The part with this level of the line signal, at the input and in the signal field (R146). -/
def State.withSignal (level : Bool) (s : State) : State :=
  { s with lsig := level, bp := { s.bp with signal := level } }

/-- A level that neither an exchange nor an UP link misses (R146). -/
theorem LinkLaw.withSignal (l : LinkLaw s) {level : Bool}
    (heard : s.bp.link = .exchanging ∨ s.bp.link = .up → level = true) : LinkLaw (s.withSignal level) :=
  { l with signal := fun _ => rfl, heard := heard }

/-- Taking the link down reads nothing of the signal. -/
theorem State.takeDown_withSignal (cause : DownCause) (status : Status) (level : Bool) (s : State) :
    (s.withSignal level).takeDown cause status = (s.takeDown cause status).withSignal level := by
  cases link : s.bp.link <;> simp only [State.takeDown, State.withSignal, link] <;> rfl

theorem State.signalLost_eq (s : State) : s.signalLost =
    if s.bp.signal then (s.takeDown .noSignal .aborted).withSignal false else s.withSignal false := by
  rw [← State.takeDown_withSignal]
  rfl

theorem LinkLaw.signalLost (l : LinkLaw s) : LinkLaw s.signalLost := by
  rw [State.signalLost_eq]
  split
  · refine (l.takeDown (cause := .noSignal) nofun .aborted).withSignal ?_
    rw [State.takeDown_down]
    nofun
  · next silent => exact l.withSignal fun link => absurd (l.heard link) silent

theorem LinkLaw.signalRises (l : LinkLaw s) : LinkLaw s.signalRises := l.withSignal fun _ => rfl

/-- The input moves in every function state; in FAULTED the signal field stays as it was (R146, R182). -/
theorem LinkLaw.signal_event (l : LinkLaw s) {level : Bool} {effect : State → State}
    (keeps : LinkLaw (effect { s with lsig := level })) : LinkLaw (State.event effect { s with lsig := level }) := by
  unfold State.event
  split
  · next faulted => exact { l with signal := fun running => absurd faulted running }
  · exact keeps.settle

/-! ### START, STOP, resets and the host's writes -/

theorem LinkLaw.resetBlocks (s : State) : LinkLaw s.resetBlocks :=
  (linkLaw_down rfl).mpr ⟨⟨⟨rfl, rfl, rfl, rfl, rfl, rfl⟩, rfl⟩,
    ⟨⟨rfl, rfl, rfl, .inl ⟨rfl, rfl⟩⟩, .inl (Nat.zero_lt_succ _)⟩, fun _ => rfl⟩

theorem LinkLaw.applyStop (l : LinkLaw s) (running : s.fn ≠ .faulted) : LinkLaw s.applyStop := by
  have stopping : LinkLaw { s with fn := .stopping, body := s.body.abortAll } := l.of_same rfl fun _ => running
  exact (stopping.takeDownHere .aborted).onBody _

theorem LinkLaw.stopCommand (l : LinkLaw s) : LinkLaw s.stopCommand := by
  unfold State.stopCommand
  split
  · exact l
  · exact { l with }
  · next running => exact l.applyStop (by simp [running])
  · exact l
  · exact l

theorem LinkLaw.startCommand (l : LinkLaw s) : LinkLaw s.startCommand := by
  unfold State.startCommand
  split
  · next off =>
    split
    · exact l.of_same rfl fun _ => by simp [off]
    · exact l.enterFault .badControlBlock
  all_goals exact l

theorem LinkLaw.controlBlockRead (l : LinkLaw s) (result : Option (BitVec 1024)) :
    LinkLaw (s.controlBlockRead result) := by
  unfold State.controlBlockRead
  split
  · next starting =>
    split
    · dsimp only
      split
      · have started : ∀ b, LinkLaw { s with fn := .running, heldStop := false, body := b } :=
          fun b => l.of_same rfl fun _ => by simp [starting]
        split
        · exact (started _).applyStop nofun
        · exact started _
      · exact l.enterFault .badControlBlock
    · exact l.enterFault .badControlBlock
  · exact l

theorem LinkLaw.notifyWrite (l : LinkLaw s) (value : Word) : LinkLaw (s.notifyWrite value) := by
  unfold State.notifyWrite
  split
  · exact l.onBody _
  · exact l

theorem LinkLaw.registerWrite (l : LinkLaw s) (offset value : Word) : LinkLaw (s.registerWrite offset value) := by
  unfold State.registerWrite
  split
  · exact l.of_same rfl id
  split
  · exact l.of_same rfl id
  split
  · unfold State.functionWrite
    split
    · exact l.event fun _ => l.startCommand
    split
    · exact l.event fun _ => l.stopCommand
    split
    · exact LinkLaw.resetBlocks s
    · exact l
  split
  · exact l.event fun _ => l.notifyWrite value
  · exact l

/-! ### Requests -/

/-- A stream request changes the body alone. -/
theorem LinkLaw.carryOutStream (l : LinkLaw s) (id : Nat) (i : StreamId) (r : AdminRecord) :
    LinkLaw (s.carryOutStream id i r) := by
  have finish : ∀ status result, LinkLaw (s.finish id status result) := fun _ _ => l.onBody _
  have done : ∀ f status result, LinkLaw ((s.onBody f).finish id status result) := fun _ _ _ => (l.onBody _).onBody _
  unfold State.carryOutStream
  split
  · unfold State.openRequest
    split
    · exact finish _ _
    · exact done _ _ _
  split
  · unfold State.closeRequest
    repeat' split
    · exact l.onBody _
    all_goals exact finish _ _
  split
  · unfold State.abortRequest
    split
    · exact l.onBody _
    · exact finish _ _
  split
  · unfold State.flushRequest
    repeat' split
    · exact l.onBody _
    all_goals exact finish _ _
  split
  · unfold State.resumeRequest
    split
    · exact finish _ _
    · exact done _ _ _
  split
  · unfold State.watchRequest
    split
    · split
      · exact done _ _ _
      split
      · split
        · exact done _ _ _
        · exact finish _ _
      · exact finish _ _
    · exact finish _ _
  · unfold State.queryStreamRequest
    split
    · exact finish _ _
    · exact l.onBody _

theorem LinkLaw.carryOutLink (l : LinkLaw s) (id : Nat) (r : AdminRecord) : LinkLaw (s.carryOutLink id r) := by
  unfold State.carryOutLink
  split
  · unfold State.linkUpRequest
    split
    · split
      · next down => exact l.callPeer down _ _ _ _
      · exact l.onBody _
    · exact l.onBody _
  split
  · have down := l.takeDownHere .overtaken
    unfold State.linkDownRequest
    dsimp only
    split
    · exact down
    · exact down.onBody _
  split
  · unfold State.loadProfileRequest
    repeat' split
    all_goals exact l.onBody _
  split
  · unfold State.readPeerRequest
    repeat' split
    all_goals exact l.onBody _
  · unfold State.queryLinkRequest
    split <;> exact l.onBody _

theorem LinkLaw.takeRequest (l : LinkLaw s) (position : Nat) (r : AdminRecord) :
    LinkLaw (s.takeRequest position r) := by
  unfold State.takeRequest
  dsimp only
  split
  · exact (l.onBody _).onBody _
  split
  · split
    · exact (l.onBody _).carryOutStream _ _ r
    · exact l.onBody _
  · exact (l.onBody _).carryOutLink _ r

theorem LinkLaw.handOnRequests (l : LinkLaw s) (n : Nat) : LinkLaw (s.handOnRequests n) := by
  induction n generalizing s with
  | zero => exact l
  | succ n ih =>
    rw [State.handOnRequests]
    split
    · split
      · exact ih (((l.onBody _).takeRequest _ _).onBody _)
      · exact l
    · exact l

theorem LinkLaw.adminFetchEnds (l : LinkLaw s) (slot : Nat) (result : Option (BitVec 256)) :
    LinkLaw (s.adminFetchEnds slot result) := by
  unfold State.adminFetchEnds
  split
  · split
    · cases s.fn <;> cases result
      case running.some bits => exact (l.onBody _).handOnRequests 8
      case running.none => exact l.enterFault .adminFetch
      all_goals exact l.onBody _
    · exact l
  · exact l

theorem LinkLaw.requestArrives (l : LinkLaw s) (r : AdminRecord) : LinkLaw (s.requestArrives r) := by
  unfold State.requestArrives
  repeat' split
  · exact l.adminFetchEnds _ _
  · exact l
  · exact l

/-! ### The ends of memory transfers -/

theorem LinkLaw.ringWriteEnds (l : LinkLaw s) (p : RingWrite → Bool) (ok : Bool) : LinkLaw (s.ringWriteEnds p ok) := by
  unfold State.ringWriteEnds
  repeat' split
  · exact l.onBody _
  · exact l.enterFault .postWrite
  · exact l

theorem LinkLaw.profileReadEnds (l : LinkLaw s) (id : Nat) (result : Option (List Byte)) :
    LinkLaw (s.profileReadEnds id result) := by
  unfold State.profileReadEnds
  split
  · split
    · exact l.onBody _
    split
    · exact l.onBody _
    · dsimp only
      split
      · exact l.onBody _
      · exact (l.reload _).onBody _
  · exact l

theorem LinkLaw.writesEnd (l : LinkLaw s) (id : Nat) (ok : Bool) (result : Nat) :
    LinkLaw (s.writesEnd id ok result) := by
  unfold State.writesEnd
  repeat' split
  all_goals exact l.onBody _

/-! ### Frames that arrive -/

/-- A frame that is heard finds the signal there (R146). -/
theorem LinkLaw.hear {effect : State → State} (l : LinkLaw s) (running : s.fn ≠ .faulted)
    (keeps : s.bp.signal = true → LinkLaw (effect s)) : LinkLaw (s.hear effect) := by
  unfold State.hear
  split
  · next heard => exact keeps ((l.signal running).trans heard)
  · exact l

theorem LinkLaw.dataEnds (l : LinkLaw s) (cls : StreamClass) (rest : List Byte)
    (decision : Reception → List Byte → Body → Body) : LinkLaw (s.dataEnds cls rest decision) := by
  unfold State.dataEnds
  repeat' split
  · exact l.onBody _
  · exact l.onBody _
  · exact l
  · exact l

end

/-! ### Every command -/

/-- Every command keeps the laws of the link, the bring-up and the cycle engine. -/
theorem exec_keeps_linkLaw {c : Instr} {s t : State} (l : LinkLaw s) (h : exec c s = .next t) : LinkLaw t := by
  have event : ∀ {effect : State → State}, (s.fn ≠ .faulted → LinkLaw (effect s)) →
      (.next (s.event effect) : Outcome State Fault Refusal) = .next t → LinkLaw t :=
    fun keeps same => Outcome.next.inj same ▸ l.event keeps
  have onBody : ∀ {effect : Body → Body},
      (.next (s.event (State.onBody effect)) : Outcome State Fault Refusal) = .next t → LinkLaw t :=
    event fun _ => l.onBody _
  have request : ∀ {r : AdminRecord},
      (.next (s.event (State.requestArrives r)) : Outcome State Fault Refusal) = .next t → LinkLaw t :=
    event fun _ => l.requestArrives _
  have hear : ∀ {effect : State → State}, (s.bp.signal = true → LinkLaw (effect s)) →
      (.next (s.event (State.hear effect)) : Outcome State Fault Refusal) = .next t → LinkLaw t :=
    fun keeps => event fun running => l.hear running keeps
  have hearUp : ∀ {effect : Body → Body},
      (.next (s.event (State.hearUp effect)) : Outcome State Fault Refusal) = .next t → LinkLaw t := by
    refine hear fun _ => ?_
    split
    · exact l.onBody _
    · exact l
  cases c with
  | powerOnReset => exact Outcome.next.inj h ▸ (LinkLaw.resetBlocks s).of_same rfl id
  | reset => exact Outcome.next.inj h ▸ LinkLaw.resetBlocks s
  | start => exact event (fun _ => l.startCommand) h
  | stop => exact event (fun _ => l.stopCommand) h
  | notify value => exact event (fun _ => l.notifyWrite value) h
  | registerWrite offset value => exact Outcome.next.inj h ▸ l.registerWrite offset value
  | controlBlockReadEnd result => exact event (fun _ => l.controlBlockRead result) h
  | adminFetchReturn slot result => exact event (fun _ => l.adminFetchEnds slot result) h
  | workRecordFetchReturn i slot result => exact onBody h
  | sendBufferReadReturn i slot result => exact onBody h
  | receiveBufferWriteEnd i ok => exact onBody h
  | completionWriteEnd ok => exact event (fun _ => l.ringWriteEnds _ ok) h
  | eventWriteEnd ok => exact event (fun _ => l.ringWriteEnds _ ok) h
  | interruptMessageWriteEnd ok => exact event (fun _ => l.ringWriteEnds _ ok) h
  | loadProfileReadEnd entry result => exact event (fun _ => l.profileReadEnds entry result) h
  | readPeerProfileWritesEnd entry ok =>
    refine event (fun _ => ?_) h
    split
    · exact l.writesEnd entry ok _
    · exact l
  | queryStreamWritesEnd entry ok =>
    refine event (fun _ => ?_) h
    split
    · exact l.writesEnd entry ok _
    · exact l
  | queryLinkWritesEnd entry ok =>
    refine event (fun _ => ?_) h
    split
    · exact l.writesEnd entry ok _
    · exact l
  | openStream tag stream params => exact request h
  | closeStream tag stream => exact request h
  | abortStream tag stream => exact request h
  | flushStream tag stream => exact request h
  | resumeStream tag stream => exact request h
  | setWatch tag stream mode dir measure threshold => exact request h
  | queryStream tag stream addr => exact request h
  | linkUp tag role period timeout => exact request h
  | linkDown tag => exact request h
  | loadProfile tag addr length => exact request h
  | readPeerProfile tag addr length => exact request h
  | queryLink tag addr => exact request h
  | dataHeaderArrival header =>
    refine hear (fun _ => ?_) h
    split
    · exact l.onBody _
    · exact l
  | dataArrivalStep bytes => exact hear (fun _ => l.onBody _) h
  | dataBestEffortEnd rest => exact event (fun _ => l.dataEnds _ rest _) h
  | dataScheduledEnd rest => exact event (fun _ => l.dataEnds _ rest _) h
  | accept i bit => exact hearUp h
  | defer i bit => exact hearUp h
  | gone i => exact hearUp h
  | notice i kind => exact hearUp h
  | noticeAck i kind => exact hearUp h
  | cycleStart number => exact hear (fun _ => l.markerArrives number) h
  | cycleEcho number => exact hear (fun _ => l.echoArrives number) h
  | hello role period length check => exact hear (fun heard => l.helloArrives heard _) h
  | profileChunk number bytes => exact hear (fun _ => l.chunkArrives number bytes) h
  | profileAck number => exact hear (fun _ => l.ackArrives number) h
  | farewell => exact hear (fun _ => l.farewellArrives) h
  | invalidFrame => exact onBody h
  | transmitFrameEnd => exact onBody h
  | leaderPeriodExpiry => exact event (fun _ => l.periodExpires) h
  | followerDeadline => exact event (fun _ => l.deadlinePasses) h
  | helloTimerExpiry => exact event (fun _ => l.helloExpires) h
  | answerTimerExpiry => exact event (fun _ => l.answerExpires) h
  | bringUpTimerExpiry => exact event (fun _ => l.bringUpExpires) h
  | lossOfSignal => exact Outcome.next.inj h ▸ l.signal_event l.signalLost
  | signalPresent => exact Outcome.next.inj h ▸ l.signal_event l.signalRises

/-- Every step keeps the laws of the link, the bring-up and the cycle engine. -/
theorem step_keeps_linkLaw {s t : State} (l : LinkLaw s) (h : step s = .next t) : LinkLaw t := by
  unfold step at h
  split at h
  · next c rest _ => exact exec_keeps_linkLaw (s := { s with pending := rest }) (l.of_same rfl id) h
  · cases h
    unfold State.tick
    split
    · exact l
    · exact l.of_same rfl id

/-- Settles O56: what each link state holds is kept by every command. -/
theorem linkLawIsKept : Obligations.LinkLawIsKept := fun _ _ l h => step_keeps_linkLaw l h

end Sys2Proof.Machine
end

section
/-! SUPPORT. The requests that name no stream: LINK_UP, LINK_DOWN, LOAD_PROFILE and READ_PEER_PROFILE (R94, R131, R132,
R134, R136, R144, R171). -/

namespace Sys2Proof.Machine

open Sys2Proof Host

/-! ### How such a request reaches its chapter -/

section

variable {s : State} {ring : HostRing}

@[simp] theorem State.helloDue_admin (s : State) : s.helloDue.body.admin = s.body.admin := by
  unfold State.helloDue
  split <;> rfl

@[simp] theorem State.bringUpFails_admin (cause : DownCause) (status : Status) (s : State) :
    (s.bringUpFails cause status).body.admin = s.body.admin := by
  simp [State.bringUpFails, Body.completePending_eq, Body.dropDue]

@[simp] theorem State.leaveUp_admin (cause : DownCause) (s : State) : (s.leaveUp cause).body.admin = s.body.admin := by
  simp only [State.leaveUp_body, Body.loseLink_admin, Body.raise_admin]

@[simp] theorem State.takeDownHere_admin (status : Status) (s : State) :
    (s.takeDownHere status).body.admin = s.body.admin := by
  have down : (s.takeDown .requested status).body.admin = s.body.admin := by
    unfold State.takeDown
    split <;> simp
  unfold State.takeDownHere
  dsimp only
  split <;> exact down

/-- No link or profile request touches the admin ring it came from. -/
theorem State.carryOutLink_admin (id : Nat) (r : AdminRecord) (s : State) :
    (s.carryOutLink id r).body.admin = s.body.admin := by
  unfold State.carryOutLink
  split
  · unfold State.linkUpRequest
    repeat' split
    · simp [State.callPeer]
    all_goals rfl
  split
  · unfold State.linkDownRequest
    dsimp only
    split <;> simp
  split
  · unfold State.loadProfileRequest
    repeat' split
    all_goals rfl
  split
  · unfold State.readPeerRequest
    repeat' split
    all_goals rfl
  · unfold State.queryLinkRequest
    split <;> rfl

/-- A well-formed request that names no stream is refused for another link request alone (R168, R171). -/
theorem admissionRefusal_none_of_link {r : AdminRecord} {table : List Entry} (wf : r.wellFormed = true)
    (code : isStreamCode r.code = false) (free : isLinkCode r.code = true → linkFree r.code table = true) :
    admissionRefusal r table = none := by
  cases link : isLinkCode r.code
  · simp [admissionRefusal, wf, code, link]
  · simp [admissionRefusal, wf, code, link, free link]

/-- An admitted request that names no stream is carried out on the part that has taken it, and what follows from it
runs. -/
theorem State.event_linkRequest {r : AdminRecord} (h : s.awaitsRequest ring) (wf : r.wellFormed = true)
    (code : isStreamCode r.code = false) (free : isLinkCode r.code = true → linkFree r.code s.body.table = true) :
    s.event (State.requestArrives r) = ((s.withRequest ring r true).carryOutLink s.body.nextId r).followed := by
  refine State.event_requestArrives h ?_ (State.carryOutLink_admin _ _ _)
  simp [State.takeRequest, admissionRefusal_none_of_link wf code free, code]
  rfl

theorem exec_linkUp (h : s.awaitsRequest ring) (free : s.noLinkRequest) (tag : Tag) (role : Byte)
    (period timeout : Word) : exec (.linkUp tag role period timeout) s =
      .next ((s.withRequest ring { AdminRecord.plain 8 0 tag with p0 := role, w1 := period, w2 := timeout }
        true).linkUpRequest s.body.nextId role period timeout).followed := by
  refine congrArg Outcome.next (State.event_linkRequest h rfl rfl fun _ => ?_)
  simp only [linkFree, List.all_eq_true]
  intro e mem
  rw [free e mem]
  rfl

/-- A LINK_DOWN is taken with a LINK_UP in flight (R171). -/
theorem exec_linkDown (h : s.awaitsRequest ring) (free : ∀ e ∈ s.body.table, isLinkCode e.code = true → e.code = 8)
    (tag : Tag) : exec (.linkDown tag) s =
      .next ((s.withRequest ring (AdminRecord.plain 9 0 tag) true).linkDownRequest s.body.nextId).followed := by
  refine congrArg Outcome.next (State.event_linkRequest h rfl rfl fun _ => ?_)
  simp only [linkFree, List.all_eq_true]
  intro e mem
  cases link : isLinkCode e.code
  · rfl
  · rw [free e mem link]
    rfl

theorem exec_loadProfile (h : s.awaitsRequest ring) (tag : Tag) (addr : Addr) (length : Word) :
    exec (.loadProfile tag addr length) s =
      .next ((s.withRequest ring { AdminRecord.plain 10 0 tag with addr := addr, w1 := length }
        true).loadProfileRequest s.body.nextId addr length).followed :=
  congrArg Outcome.next (State.event_linkRequest h rfl rfl nofun)

theorem exec_readPeerProfile (h : s.awaitsRequest ring) (tag : Tag) (addr : Addr) (length : Word) :
    exec (.readPeerProfile tag addr length) s =
      .next ((s.withRequest ring { AdminRecord.plain 11 0 tag with addr := addr, w1 := length }
        true).readPeerRequest s.body.nextId addr length).followed :=
  congrArg Outcome.next (State.event_linkRequest h rfl rfl nofun)

end

/-! ### LINK_UP -/

theorem Role.ofCode_eq_some_iff {c : Byte} {role : Role} : Role.ofCode c = some role ↔ role.code = c.toNat := by
  have one : c = 1 ↔ 1 = c.toNat := by bv_omega
  have two : c = 2 ↔ 2 = c.toNat := by bv_omega
  simp only [Role.ofCode, one, two]
  cases role <;> simp only [Role.code] <;> split_ifs <;> simp <;> omega

theorem Period.ofUs_eq_some_iff {n : Nat} {p : Period} : Period.ofUs n = some p ↔ p.us = n := by
  unfold Period.ofUs
  cases p <;> simp only [Period.us] <;> split_ifs <;> simp <;> omega

/-- A LINK_UP's role, period and timeout are in range, or it is refused (R136). -/
theorem linkUpParams_eq_some_iff {role : Byte} {period timeout : Word} {r : Role} {p : Period} {t : Nat} :
    linkUpParams role period timeout = some (r, p, t) ↔
      r.code = role.toNat ∧ p.us = period.toNat ∧ 10 ≤ timeout.toNat ∧ timeout.toNat ≤ 60000 ∧ timeout.toNat = t := by
  rw [← Role.ofCode_eq_some_iff, ← Period.ofUs_eq_some_iff]
  unfold linkUpParams
  split
  · next r' p' role_code period_us =>
    rw [role_code, period_us]
    split_ifs with inRange
    · simp [inRange]
    · simp [← and_assoc, inRange]
  · next unknown =>
    refine ⟨nofun, fun ⟨role_code, period_us, _⟩ => absurd period_us (unknown r p role_code)⟩

theorem linkUpParams_eq_none {role : Byte} {period timeout : Word}
    (bad : (role ≠ 1 ∧ role ≠ 2) ∨ period.toNat ∉ [125, 250, 500, 1000] ∨ timeout.toNat < 10 ∨
      60000 < timeout.toNat) : linkUpParams role period timeout = none := by
  refine Option.eq_none_iff_forall_ne_some.mpr fun ⟨r, p, t⟩ params => ?_
  obtain ⟨role_code, period_us, long, short, -⟩ := linkUpParams_eq_some_iff.mp params
  rcases bad with ⟨not_leader, not_follower⟩ | unlisted | early | late
  · cases r <;> simp only [Role.code] at role_code <;> bv_omega
  · cases p <;> simp [← period_us, Period.us] at unlisted
  · omega
  · omega

section

variable {s : State}

/-- With no HELLO due one becomes due (R137). -/
theorem State.helloDue_of_none (unsent : ∀ f ∈ s.body.lt.due ++ s.body.lt.fresh, f.isHello = false) :
    s.helloDue = s.withDue s.helloFrame := by
  refine if_neg fun sent => ?_
  obtain ⟨f, mem, hello⟩ := List.any_eq_true.mp sent
  exact absurd hello (by simp [unsent f mem])

/-- With a HELLO due no second one becomes due (R137). -/
theorem State.helloDue_of_some (waits : ∃ f ∈ s.body.lt.due ++ s.body.lt.fresh, f.isHello = true) :
    s.helloDue = s :=
  if_pos (List.any_eq_true.mpr waits)

/-- The HELLO of a part that has a role and a period (R136). -/
theorem State.helloFrame_eq {role : Role} {p : Period} (mine : s.ce.role = some role) (period : s.ce.period = some p) :
    s.helloFrame = .hello (BitVec.ofNat 8 role.code) (BitVec.ofNat 16 p.us)
      (BitVec.ofNat 16 s.bp.localProfile.length) (checkValue s.bp.localProfile) := by
  simp only [State.helloFrame, mine, period, Option.map_some, Option.getD_some]

/-- A LINK_UP that is accepted: the engine has its role and period, the link is CALLING with both timers running, a
HELLO is due, and LINK_STATE(CALLING) is raised (R94, R136). -/
theorem State.callPeer_eq {id : Nat} {role : Role} {p : Period} {timeout : Nat}
    (unsent : ∀ f ∈ s.body.lt.due ++ s.body.lt.fresh, f.isHello = false) : s.callPeer id role p timeout =
      (State.withDue { s with
        ce := { s.ce with
          role := some role, period := some p, sync := .unlocked, coasting := 0, echoMiss := 0
          firstMarker := role == Role.follower }
        bp := { s.bp with
          link := .calling, pendingLinkUp := some id, bringUpEnds := some (s.now + 1000 * timeout)
          helloEnds := some (s.now + 1000) } }
        (.hello (BitVec.ofNat 8 role.code) (BitVec.ofNat 16 p.us) (BitVec.ofNat 16 s.bp.localProfile.length)
          (checkValue s.bp.localProfile))).withEvent none (.linkState .calling none) :=
  congrArg (State.withEvent · none (.linkState .calling none)) (State.helloDue_of_none unsent)

theorem State.linkUpRequest_refused {id : Nat} {role : Byte} {period timeout : Word}
    (bad : linkUpParams role period timeout = none) : s.linkUpRequest id role period timeout =
      s.finish id .badRequest 0 := by
  simp only [State.linkUpRequest, bad]

theorem State.linkUpRequest_inRange {id : Nat} {role : Byte} {period timeout : Word} {r : Role} {p : Period} {t : Nat}
    (params : linkUpParams role period timeout = some (r, p, t)) : s.linkUpRequest id role period timeout =
      if s.bp.link = .down then s.callPeer id r p t else s.finish id .wrongState 0 := by
  simp only [State.linkUpRequest, params]

end

/-- Settles O22: a LINK_UP in range calls the peer from DOWN alone. -/
theorem linkUpCallsThePeer : Obligations.LinkUpCallsThePeer := by
  intro s ring tag roleCode period timeout awaits free c r
  have carried : ∀ t, (s.withRequest ring r true).linkUpRequest s.body.nextId roleCode period timeout = t →
      exec c s = .next t.followed := fun _ h => h ▸ exec_linkUp awaits free tag roleCode period timeout
  refine ⟨fun bad => ?_, fun role p role_code period_us long short => ?_⟩
  · exact carried _ (State.linkUpRequest_refused (linkUpParams_eq_none bad))
  · have inRange := State.linkUpRequest_inRange (s := s.withRequest ring r true) (id := s.body.nextId)
      (linkUpParams_eq_some_iff.mpr ⟨role_code, period_us, long, short, rfl⟩)
    refine ⟨fun busy => carried _ (inRange.trans (if_neg busy)), fun down unsent => carried _ ?_⟩
    exact (inRange.trans (if_pos down)).trans (State.callPeer_eq unsent)

/-! ### LINK_DOWN -/

section

variable {s : State}

theorem State.linkDownRequest_down (id : Nat) (down : s.bp.link = .down) :
    s.linkDownRequest id = s.finish id .ok 0 := by
  have stays : s.takeDown .requested .overtaken = s := by simp only [State.takeDown, down]
  simp [State.linkDownRequest, State.takeDownHere, stays, State.isUp, down, beq_eq_decide]

theorem State.linkDownRequest_bringing (id : Nat) (bringing : s.bp.link = .calling ∨ s.bp.link = .exchanging) :
    s.linkDownRequest id = (s.bringUpFails .requested .overtaken).finish id .ok 0 := by
  rcases bringing with link | link <;>
    simp [State.linkDownRequest, State.takeDownHere, State.takeDown, State.isUp, link, beq_eq_decide]

theorem State.linkDownRequest_up (id : Nat) (up : s.bp.link = .up) :
    s.linkDownRequest id = (s.leaveUp .requested).withDue .farewell := by
  simp [State.linkDownRequest, State.takeDownHere, State.takeDown, State.isUp, up, State.withDue]

/-- A bring-up that fails with its LINK_UP pending (R143). -/
theorem State.bringUpFails_pending {pending : Nat} (is_pending : s.bp.pendingLinkUp = some pending) (cause : DownCause)
    (status : Status) : s.bringUpFails cause status =
      ((State.onBody (Body.dropDue fun f => !f.isFarewell) { s with bp := { s.bp with
        link := .down, lastDown := some cause, pendingLinkUp := none, bringUpEnds := none, helloEnds := none
        peerHello := none, outgoing := none, incoming := none } }).withEvent none
          (.linkState .down (some cause))).finish pending status 0 := by
  rw [State.bringUpFails, is_pending]
  rfl

end

/-- Settles O23: the link state decides what a LINK_DOWN takes down. -/
theorem linkDownTakesTheLinkDown : Obligations.LinkDownTakesTheLinkDown := by
  intro s ring tag awaits free c r
  have carried : ∀ t, (s.withRequest ring r true).linkDownRequest s.body.nextId = t → exec c s = .next t.followed :=
    fun _ h => h ▸ exec_linkDown awaits free tag
  refine ⟨fun down => carried _ ?_, fun pending bringing is_pending => carried _ ?_, fun up => carried _ ?_⟩
  · exact State.linkDownRequest_down _ down
  · have fails := State.bringUpFails_pending (s := s.withRequest ring r true) is_pending .requested .overtaken
    exact (State.linkDownRequest_bringing (s := s.withRequest ring r true) _ bringing).trans
      (congrArg (State.finish _ .ok 0) fails)
  · exact State.linkDownRequest_up _ up

end Sys2Proof.Machine
end

section
/-! SUPPORT. LOAD_PROFILE and READ_PEER_PROFILE, and a profile's checks read byte by byte (8.1; R131, R132, R134). -/

namespace Sys2Proof.Machine

open Sys2Proof Host

/-! ### Bytes that are zero -/

theorem leVal_fit_eq_zero_iff (n : Nat) (bs : List Byte) :
    leVal (fit n bs) = 0 ↔ ∀ k, k < n → profileByte bs k = 0 := by
  induction n generalizing bs with
  | zero => simp [fit, leVal]
  | succ n ih =>
    have step : leVal (fit (n + 1) bs) = profileByte bs 0 + 256 * leVal (fit n bs.tail) := by
      cases bs <;> simp [fit, leVal, profileByte, List.replicate_succ]
    have tail : ∀ k, profileByte bs.tail k = profileByte bs (k + 1) := fun k => by
      cases bs <;> rfl
    rw [step, Nat.forall_lt_succ_left']
    simp [ih, tail]

theorem all_take_zero_iff (n : Nat) (bs : List Byte) :
    (bs.take n).all (· == 0) = true ↔ ∀ k, k < n → profileByte bs k = 0 := by
  induction n generalizing bs with
  | zero => simp
  | succ n ih =>
    cases bs with
    | nil => simp [profileByte]
    | cons b bs =>
      have head : b = 0 ↔ profileByte (b :: bs) 0 = 0 := by simp [profileByte, ← BitVec.toNat_inj]
      rw [List.take_succ_cons, List.all_cons, Bool.and_eq_true, ih, beq_iff_eq, head, Nat.forall_lt_succ_left']
      rfl

/-- Bytes `i` to `j` − 1 of a list are zero where those of its rest from `i` on are. -/
theorem profileByte_drop_zero_iff (p : List Byte) (i j : Nat) :
    (∀ k, k < j - i → profileByte (p.drop i) k = 0) ↔ ∀ k, i ≤ k → k < j → profileByte p k = 0 := by
  simp only [profileByte_drop]
  refine ⟨fun zero k low high => ?_, fun zero k high => zero (i + k) (Nat.le_add_right ..) (by omega)⟩
  have := zero (k - i) (by omega)
  rwa [Nat.add_sub_cancel' low] at this

theorem profileField_eq_zero_iff (p : List Byte) (i len : Nat) :
    profileField p i len = 0 ↔ ∀ k, i ≤ k → k < i + len → profileByte p k = 0 := by
  rw [profileField, leVal_fit_eq_zero_iff, ← profileByte_drop_zero_iff, Nat.add_sub_cancel_left]

/-! ### The checks of a profile (R132) -/

/-- The length of entry `k` of a profile's packets, from its bytes. -/
def profileMaxLen (p : List Byte) (k : Nat) : Nat :=
  profileByte p (profileEntryStart p k + 4) + 256 * profileByte p (profileEntryStart p k + 5)

/-- Check 4 of R132, on the bytes of entry `k`. -/
def profileEntryInRange (p : List Byte) (k : Nat) : Prop :=
  profileByte p (profileEntryStart p k) ≤ 15 ∧
  (profileByte p (profileEntryStart p k + 1) = 1 ∨ profileByte p (profileEntryStart p k + 1) = 2) ∧
  4 ≤ profileMaxLen p k ∧ profileMaxLen p k ≤ 1024 ∧ profileMaxLen p k % 4 = 0 ∧
  ((profileByte p (profileEntryStart p k + 2) = 1 ∧ 1 ≤ profileByte p (profileEntryStart p k + 3) ∧
      profileByte p (profileEntryStart p k + 3) ≤ 3) ∨
    (profileByte p (profileEntryStart p k + 2) = 2 ∧ profileByte p (profileEntryStart p k + 3) = 0))

theorem profileEntryAt_inRange (p : List Byte) (k : Nat) :
    (profileEntryAt p k).inRange = true ↔ profileEntryInRange p k := by
  obtain ⟨stream, dir, cls, perCycle, maxLen⟩ := profileEntryAt_fields p k
  simp only [ProfileEntry.inRange, Bool.and_eq_true, Bool.or_eq_true, decide_eq_true_eq, beq_iff_eq, ← BitVec.toNat_inj,
    stream, dir, cls, perCycle, maxLen, and_assoc]
  rfl

theorem profileEntryAt_reservedZero (p : List Byte) (k : Nat) : (profileEntryAt p k).reservedZero = true ↔
    ∀ j, 6 ≤ j → j < 12 → profileByte p (profileEntryStart p k + j) = 0 := by
  have start : 8 + paddedName (profileNameLength p) + 12 * k = profileEntryStart p k := by
    rw [profileNameLength, profileField_one, paddedName, profileEntryStart]
  simp only [profileEntryAt, beq_iff_eq, start, profileField_eq_zero_iff, profileByte_drop]

/-- No two entries are of one stream (R132). -/
theorem profileEntries_streams_nodup (p : List Byte) : ((profileEntries p).map ProfileEntry.stream).Nodup ↔
    ∀ k l, k < l → l < profileByte p 2 →
      profileByte p (profileEntryStart p k) ≠ profileByte p (profileEntryStart p l) := by
  have stream : ∀ k, (profileEntryAt p k).stream = profileByte p (profileEntryStart p k) :=
    fun k => (profileEntryAt_fields p k).1
  simp only [profileEntries, profileEntryCount, profileField_one, List.map_map, List.Nodup, List.pairwise_iff_getElem,
    List.getElem_map, List.getElem_range, List.length_map, List.length_range, Function.comp_apply, stream]
  exact ⟨fun h k l less last => h k l (less.trans last) last less, fun h k l _ last less => h k l less last⟩

/-- Checks 2 to 5 of R132, on the bytes of a profile. -/
theorem validProfile_iff (n : Nat) (p : List Byte) : validProfile n p = true ↔
    profileByte p 0 + 256 * profileByte p 1 = n ∧ profileByte p 2 ≤ 16 ∧ profileByte p 3 ≤ 64 ∧
    8 + paddedName (profileByte p 3) + 12 * profileByte p 2 = n ∧
    (∀ k, k < profileByte p 2 → profileEntryInRange p k) ∧
    (∀ k l, k < l → l < profileByte p 2 →
      profileByte p (profileEntryStart p k) ≠ profileByte p (profileEntryStart p l)) ∧
    (∀ k, 4 ≤ k → k < 8 → profileByte p k = 0) ∧
    (∀ k, profileByte p 3 ≤ k → k < paddedName (profileByte p 3) → profileByte p (8 + k) = 0) ∧
    (∀ k j, k < profileByte p 2 → 6 ≤ j → j < 12 → profileByte p (profileEntryStart p k + j) = 0) := by
  have entries : ∀ {q : ProfileEntry → Bool}, (profileEntries p).all q = true ↔
      ∀ k, k < profileByte p 2 → q (profileEntryAt p k) = true := by
    simp [profileEntries, profileEntryCount, profileField_one]
  have padding : ((p.drop (8 + profileByte p 3)).take (paddedName (profileByte p 3) - profileByte p 3)).all (· == 0) =
      true ↔ ∀ k, profileByte p 3 ≤ k → k < paddedName (profileByte p 3) → profileByte p (8 + k) = 0 := by
    have drops : p.drop (8 + profileByte p 3) = (p.drop 8).drop (profileByte p 3) := List.drop_drop.symm
    simp only [drops, all_take_zero_iff, profileByte_drop_zero_iff, profileByte_drop p 8]
  simp only [validProfile, profileNameLength, profileField_one, Bool.and_eq_true, beq_iff_eq, decide_eq_true_eq,
    entries, padding, profileEntries_streams_nodup, profileField_eq_zero_iff, profileEntryAt_inRange,
    profileEntryAt_reservedZero, profileLength, profileField_two, profileEntryCount, and_assoc]
  have reserved : (∀ k, k < profileByte p 2 → ∀ j, 6 ≤ j → j < 12 → profileByte p (profileEntryStart p k + j) = 0) ↔
      ∀ k j, k < profileByte p 2 → 6 ≤ j → j < 12 → profileByte p (profileEntryStart p k + j) = 0 :=
    forall_congr' fun _ => forall_comm
  refine and_congr_right fun length => ?_
  rw [length, reserved]

/-! ### The requests as they are taken -/

theorem pastTop_iff {addr : Addr} {len : Nat} : pastTop addr len = true ↔ 2 ^ 64 < addr.toNat + len := by
  simp [pastTop]

theorem pastTop_eq_false {addr : Addr} {len : Nat} (fits : addr.toNat + len ≤ 2 ^ 64) : pastTop addr len = false :=
  Bool.eq_false_iff.mpr fun past => absurd (pastTop_iff.mp past) (Nat.not_lt.mpr fits)

section

variable {s : State} {addr : Addr} {length : Word} (id : Nat)

theorem State.loadProfileRequest_long (out : length.toNat < 8 ∨ 256 < length.toNat) :
    s.loadProfileRequest id addr length = s.finish id .badProfile 0 := if_pos out

theorem State.loadProfileRequest_inRange (low : 8 ≤ length.toNat) (high : length.toNat ≤ 256) :
    s.loadProfileRequest id addr length = if 2 ^ 64 < addr.toNat + length.toNat then s.finish id .badRequest 0
      else s.onBody (Body.setWork id (.profileRead addr length.toNat)) := by
  unfold State.loadProfileRequest
  rw [if_neg (by omega)]
  simp only [pastTop_iff]

theorem State.readPeerRequest_refused (out : 256 < length.toNat ∨ 2 ^ 64 < addr.toNat + length.toNat) :
    s.readPeerRequest id addr length = s.finish id .badRequest 0 :=
  if_pos (out.imp_right pastTop_iff.mpr)

theorem State.readPeerRequest_inRange (high : length.toNat ≤ 256) (fits : addr.toNat + length.toNat ≤ 2 ^ 64) :
    s.readPeerRequest id addr length = match s.isUp, s.bp.peerProfile with
      | true, some peer =>
        if length.toNat = 0 then s.finish id .ok peer.length
        else s.onBody (Body.setWork id (.peerWrites addr (peer.take length.toNat) peer.length))
      | _, _ => s.finish id .linkNotUp 0 := by
  have inRange : ¬(256 < length.toNat ∨ pastTop addr length.toNat = true) := by
    simpa [pastTop_eq_false fits] using high
  exact if_neg inRange

theorem State.readPeerRequest_down (high : length.toNat ≤ 256) (fits : addr.toNat + length.toNat ≤ 2 ^ 64)
    (down : s.bp.link ≠ .up) : s.readPeerRequest id addr length = s.finish id .linkNotUp 0 := by
  rw [State.readPeerRequest_inRange id high fits, (State.isUp_false_iff s).mpr down]

theorem State.readPeerRequest_up {p : List Byte} (high : length.toNat ≤ 256)
    (fits : addr.toNat + length.toNat ≤ 2 ^ 64) (up : s.bp.link = .up) (peer : s.bp.peerProfile = some p) :
    s.readPeerRequest id addr length = if length.toNat = 0 then s.finish id .ok p.length
      else s.onBody (Body.setWork id (.peerWrites addr (p.take length.toNat) p.length)) := by
  rw [State.readPeerRequest_inRange id high fits, (State.isUp_iff s).mpr up, peer]

end

/-! ### The end of a LOAD_PROFILE read -/

section

variable {s : State} {id n : Nat} {e : Entry} {addr : Addr} {data : List Byte}

theorem exec_loadProfileReadEnd (running : s.fn ≠ .faulted) (id : Nat) (result : Option (List Byte)) :
    exec (.loadProfileReadEnd id result) s = .next (s.profileReadEnds id result).settle :=
  congrArg Outcome.next (State.event_eq running _)

theorem State.profileReadEnds_stopping (entry : s.body.entry id = some e) (work : e.work = .profileRead addr n)
    (stopping : s.fn = .stopping) (result : Option (List Byte)) :
    s.profileReadEnds id result = s.finish id .aborted 0 := by
  simp [State.profileReadEnds, entry, work, stopping]

theorem State.profileReadEnds_error (entry : s.body.entry id = some e) (work : e.work = .profileRead addr n)
    (running : s.fn = .running) : s.profileReadEnds id none = s.finish id .memoryError 0 := by
  simp [State.profileReadEnds, entry, work, running]

/-- The bytes read are checked, and loaded where every check passes (R132). -/
theorem State.profileReadEnds_read (entry : s.body.entry id = some e) (work : e.work = .profileRead addr n)
    (running : s.fn = .running) (length : data.length = n) : s.profileReadEnds id (some data) =
      match s.profileRefusal n data with
      | some status => s.finish id status 0
      | none => State.finish id .ok (checkValue data).toNat
          { s with bp := { s.bp with localProfile := data } } := by
  simp only [State.profileReadEnds, entry, work, running, Option.map_some, fit_of_length length]
  rfl

/-- Every open stream passes the local-profile check with these bytes (R132). -/
def State.suits (s : State) (data : List Byte) : Prop :=
  ∀ i st, s.body.stream i = some st → localAllows data i st = true

theorem State.profileRefusal_eq [Decidable (s.suits data)] : s.profileRefusal n data =
    if s.bp.link ≠ .down then some .wrongState else if validProfile n data = false then some .badProfile
    else if s.suits data then none else some .wrongState := by
  unfold State.profileRefusal
  refine if_congr Iff.rfl rfl (if_congr (by simp) rfl (if_congr ?_ rfl rfl))
  simp only [List.all_eq_true, List.mem_finRange, true_implies]
  refine forall_congr' fun i => ?_
  cases s.body.stream i <;> simp

end

/-- Settles O24: each check of a request and of a profile is reached only once those before it have passed. -/
theorem profileRequestsBeginAndLoadDecides : Obligations.ProfileRequestsBeginAndLoadDecides := by
  refine ⟨?taken, validProfile_iff, ?read⟩
  case taken =>
    intro s ring tag addr length awaits load rl peer rp n
    have loads : ∀ t, (s.withRequest ring rl true).loadProfileRequest s.body.nextId addr length = t →
        exec load s = .next t.followed := fun _ h => h ▸ exec_loadProfile awaits tag addr length
    have reads : ∀ t, (s.withRequest ring rp true).readPeerRequest s.body.nextId addr length = t →
        exec peer s = .next t.followed := fun _ h => h ▸ exec_readPeerProfile awaits tag addr length
    refine ⟨fun out => loads _ (State.loadProfileRequest_long _ out), fun low high past => loads _ ?_,
      fun low high fits => loads _ ?_, fun out => reads _ (State.readPeerRequest_refused _ out),
      fun high fits down => reads _ (State.readPeerRequest_down _ high fits down),
      fun p high fits up held => ⟨fun zero => reads _ ?_, fun some_bytes => reads _ ?_⟩⟩
    · rw [State.loadProfileRequest_inRange _ low high, if_pos past]
    · rw [State.loadProfileRequest_inRange _ low high, if_neg (Nat.not_lt.mpr fits)]
    · rw [State.readPeerRequest_up (s := s.withRequest ring rp true) _ high fits up held, if_pos zero]
    · rw [State.readPeerRequest_up (s := s.withRequest ring rp true) _ high fits up held, if_neg some_bytes]
  case read =>
    intro s id e addr n data entry work length c ends
    classical
    have read (running : s.fn = .running) : exec c s = _ :=
      (exec_loadProfileReadEnd (FnState.ne_faulted (.inl running)) id (some data)).trans
        (congrArg (Outcome.next ∘ State.settle) (State.profileReadEnds_read entry work running length))
    refine ⟨fun stopping => ?_, fun running => ?_, fun running up => ?_, fun running down bad => ?_,
      fun running down valid unsuited => ?_, fun running down valid suited => ?_⟩
    · exact (exec_loadProfileReadEnd (FnState.ne_faulted (.inr stopping)) id (some data)).trans
        (congrArg (Outcome.next ∘ State.settle) (State.profileReadEnds_stopping entry work stopping _))
    · exact (exec_loadProfileReadEnd (FnState.ne_faulted (.inl running)) id none).trans
        (congrArg (Outcome.next ∘ State.settle) (State.profileReadEnds_error entry work running))
    all_goals
      have ended := read running
      rw [State.profileRefusal_eq] at ended
    · rwa [if_pos up] at ended
    · rwa [if_neg (not_not.mpr down), if_pos bad] at ended
    · obtain ⟨i, st, opened, not_allowed⟩ := unsuited
      have not_suits : ¬s.suits data := fun suits => by simp [suits i st opened] at not_allowed
      rwa [if_neg (not_not.mpr down), if_neg (by simp [valid]), if_neg not_suits] at ended
    · rwa [if_neg (not_not.mpr down), if_neg (by simp [valid]), if_pos (show s.suits data from suited)] at ended

end Sys2Proof.Machine
end

section
/-! SUPPORT. The frames and timers of a bring-up, FAREWELL and the line signal, by the link state they find (R111, R137
to R146). -/

namespace Sys2Proof.Machine

open Sys2Proof Host

/-! ### FAREWELL and the line signal -/

section

variable {s : State}

/-- Outside UP, or without the signal, a frame that acts in UP alone changes nothing (R111, R146). -/
theorem State.event_hearUp_ignored (effect : Body → Body) (running : s.fn ≠ .faulted)
    (ignored : s.bp.link ≠ .up ∨ s.lsig = false) : s.event (State.hearUp effect) = s.settle := by
  rcases ignored with down | silent
  · have not_up : s.isUp = false := (State.isUp_false_iff s).mpr down
    rw [State.event_eq running, State.hearUp, State.hear, not_up, if_neg Bool.false_ne_true, ite_self]
  · exact State.event_hear_silent _ running silent

theorem exec_farewell (running : s.fn ≠ .faulted) (heard : s.lsig = true) :
    exec .farewell s = .next s.farewellArrives.settle :=
  congrArg Outcome.next (State.event_hear _ running heard)

theorem State.takeDown_of_down (down : s.bp.link = .down) (cause : DownCause) (status : Status) :
    s.takeDown cause status = s := by
  simp only [State.takeDown, down]

theorem State.takeDown_bringing (bringing : s.bp.link = .calling ∨ s.bp.link = .exchanging) (cause : DownCause)
    (status : Status) : s.takeDown cause status = s.bringUpFails cause status := by
  rcases bringing with link | link <;> simp only [State.takeDown, link]

theorem State.takeDown_up (up : s.bp.link = .up) (cause : DownCause) (status : Status) :
    s.takeDown cause status = s.leaveUp cause := by
  simp only [State.takeDown, up]

/-- The part with its line signal gone, its link as it was (R146). -/
def State.withoutSignal (s : State) : State := { s with lsig := false, bp := { s.bp with signal := false } }

/-- A loss of signal takes the link down where the signal was there (R146). -/
theorem exec_lossOfSignal (running : s.fn ≠ .faulted) : exec .lossOfSignal s =
    .next (if s.bp.signal then s.withoutSignal.takeDown .noSignal .aborted else s.withoutSignal).settle :=
  congrArg Outcome.next (State.event_eq (s := { s with lsig := false }) running State.signalLost)

end

/-- Settles O49: each frame and each change of the signal, by the link state it finds. -/
theorem farewellAndSignalTakeTheLinkDown : Obligations.FarewellAndSignalTakeTheLinkDown := by
  refine ⟨?_, fun s fn => ?_⟩
  · intro s c running transfer other
    refine ⟨?_, ?_⟩
    · rintro (⟨i, bit, rfl | rfl⟩ | ⟨i, rfl⟩ | ⟨i, kind, rfl | rfl⟩) ignored
      all_goals exact congrArg Outcome.next (State.event_hearUp_ignored _ running ignored)
    · rintro (⟨n, rfl | rfl⟩ | ⟨role, period, length, check, rfl⟩ | ⟨n, bytes, rfl⟩ | ⟨n, rfl⟩ | rfl) silent
      all_goals exact congrArg Outcome.next (State.event_hear_silent _ running silent)
  · have running : s.fn ≠ .faulted := FnState.ne_faulted (.inl fn)
    have lost := exec_lossOfSignal running
    refine ⟨fun heard => ?_, fun kept => ?_, fun signal bringing => ?_, fun signal up => ?_, ?_⟩
    · have arrives := exec_farewell running heard
      refine ⟨fun early => ?_, fun exchanging => ?_, fun up => ?_⟩
      · rcases early with link | link <;> simpa only [State.farewellArrives, link] using arrives
      · simpa only [State.farewellArrives, exchanging] using arrives
      · simpa only [State.farewellArrives, up] using arrives
    · rcases kept with absent | down
      · rwa [absent, if_neg Bool.false_ne_true] at lost
      · rwa [State.takeDown_of_down (s := s.withoutSignal) down, ite_self] at lost
    · rwa [signal, if_pos rfl, State.takeDown_bringing (s := s.withoutSignal) bringing] at lost
    · rwa [signal, if_pos rfl, State.takeDown_up (s := s.withoutSignal) up] at lost
    · exact congrArg Outcome.next (State.event_eq (s := { s with lsig := true }) running State.signalRises)

/-! ### The timers of a bring-up -/

section

variable {s : State} {t : Nat}

theorem exec_helloTimerExpiry (running : s.fn ≠ .faulted) :
    exec .helloTimerExpiry s = .next s.helloExpires.settle :=
  congrArg Outcome.next (State.event_eq running _)

theorem exec_answerTimerExpiry (running : s.fn ≠ .faulted) :
    exec .answerTimerExpiry s = .next s.answerExpires.settle :=
  congrArg Outcome.next (State.event_eq running _)

theorem exec_bringUpTimerExpiry (running : s.fn ≠ .faulted) :
    exec .bringUpTimerExpiry s = .next s.bringUpExpires.settle :=
  congrArg Outcome.next (State.event_eq running _)

/-- The part with its HELLO timer started anew (R137). -/
def State.helloAgain (s : State) : State := { s with bp := { s.bp with helloEnds := some (s.now + 1000) } }

theorem State.helloExpires_void (void : ∀ t, s.bp.helloEnds = some t → s.now < t) : s.helloExpires = s := by
  unfold State.helloExpires
  split
  · next t ends => exact if_neg (Nat.not_le.mpr (void t ends))
  · rfl

theorem State.helloExpires_due (ends : s.bp.helloEnds = some t) (due : t ≤ s.now) :
    s.helloExpires = s.helloAgain.helloDue := by
  simp only [State.helloExpires, ends, if_pos due, State.helloAgain]

theorem State.answerExpires_void (void : ∀ o t, s.bp.outgoing = some o → o.timer = some t → s.now < t) :
    s.answerExpires = s := by
  unfold State.answerExpires
  split
  · next o outgoing =>
    split
    · next t timer => exact if_neg (Nat.not_le.mpr (void o t outgoing timer))
    · rfl
  · rfl

theorem State.answerExpires_due {o : Outgoing} (outgoing : s.bp.outgoing = some o) (timer : o.timer = some t)
    (due : t ≤ s.now) : s.answerExpires = if o.sends < 8 then s.sendChunk o.chunk (o.sends + 1)
      else s.bringUpFails .profileFailed .profileFailed := by
  simp only [State.answerExpires, outgoing, timer, if_pos due]

theorem State.bringUpExpires_void (void : ∀ t, s.bp.bringUpEnds = some t → s.now < t) : s.bringUpExpires = s := by
  unfold State.bringUpExpires
  split
  · next t ends => exact if_neg (Nat.not_le.mpr (void t ends))
  · rfl

theorem State.bringUpExpires_due (ends : s.bp.bringUpEnds = some t) (due : t ≤ s.now) :
    s.bringUpExpires = s.bringUpFails .timeout .timeout := by
  simp only [State.bringUpExpires, ends, if_pos due]

end

/-- Settles O48: a timer of a bring-up acts once it has run out. -/
theorem bringUpTimersExpire : Obligations.BringUpTimersExpire := by
  intro s t fn
  have running : s.fn ≠ .faulted := FnState.ne_faulted (.inl fn)
  have hello := exec_helloTimerExpiry running
  have answer := exec_answerTimerExpiry running
  have bringUp := exec_bringUpTimerExpiry running
  refine ⟨fun void => ?_, fun void => ?_, fun void => ?_,
    fun ends due => ⟨fun waits => ?_, fun unsent role p mine period => ?_⟩,
    fun o outgoing timer due => ⟨fun few => ?_, fun last => ?_⟩, fun ends due => ?_⟩
  · rwa [State.helloExpires_void void] at hello
  · rwa [State.answerExpires_void void] at answer
  · rwa [State.bringUpExpires_void void] at bringUp
  · rwa [State.helloExpires_due ends due, State.helloDue_of_some (s := s.helloAgain) waits] at hello
  · rwa [State.helloExpires_due ends due, State.helloDue_of_none (s := s.helloAgain) unsent,
      State.helloFrame_eq (s := s.helloAgain) mine period] at hello
  · rwa [State.answerExpires_due outgoing timer due, if_pos few] at answer
  · rwa [State.answerExpires_due outgoing timer due, if_neg (Nat.not_lt.mpr last)] at answer
  · rwa [State.bringUpExpires_due ends due] at bringUp

/-! ### HELLO -/

section

variable {s : State} {h : PeerHello}

theorem exec_hello (h : PeerHello) (running : s.fn ≠ .faulted) (heard : s.lsig = true) :
    exec (.hello h.role h.period h.length h.check) s = .next (s.helloArrives h).settle :=
  congrArg Outcome.next (State.event_hear _ running heard)

/-- A HELLO in CALLING, or one that has changed in EXCHANGING, is checked (R138). -/
theorem State.helloArrives_checked
    (checked : s.bp.link = .calling ∨ (s.bp.link = .exchanging ∧ s.bp.peerHello ≠ some h)) :
    s.helloArrives h = s.helloChecked h := by
  rcases checked with link | ⟨link, changed⟩
  · simp only [State.helloArrives, link]
  · simp only [State.helloArrives, link, if_neg changed]

/-- The checks of a HELLO by a part that has a role and a period (R138). -/
theorem State.helloChecked_eq {mine : Role} {p : Period} (role : s.ce.role = some mine)
    (period : s.ce.period = some p) : s.helloChecked h =
      if mine.code = h.role.toNat then s.bringUpFails .roleConflict .roleConflict
      else if p.us ≠ h.period.toNat then s.bringUpFails .periodMismatch .periodMismatch
      else if h.length.toNat < 8 ∨ 256 < h.length.toNat then s.bringUpFails .profileFailed .profileFailed
      else s.beginExchange h := by
  simp only [State.helloChecked, role, period, Option.map_some, Option.some.injEq, ne_eq]

theorem State.beginExchange_bp : (s.beginExchange h).bp = { s.bp with
    link := .exchanging, peerHello := some h
    helloEnds := some (s.bp.helloEnds.getD (s.now + 1000))
    incoming := some { next := 0, bytes := [], done := false }
    outgoing := some { chunk := 0, sends := 1, timer := some (s.now + 1000), done := false } } := by
  have begun : (s.beginExchange h).bp = (s.exchangesBegun h).bp := by
    rw [State.beginExchange_eq]
    split <;> rfl
  rw [begun]
  cases ends : s.bp.helloEnds <;> simp [State.exchangesBegun, State.sendChunk, ends]

theorem State.beginExchange_ce : (s.beginExchange h).ce = s.ce := by
  rw [State.beginExchange_eq]
  split <;> rfl

theorem State.beginExchange_streams : (s.beginExchange h).body.streams = s.body.streams := by
  rw [State.beginExchange_eq]
  split <;> rfl

/-- The chunk frames of the exchange before it are dropped, and chunk 0 becomes due (R138, R139). -/
theorem State.beginExchange_fresh : (s.beginExchange h).body.lt.fresh =
    s.body.lt.fresh.filter (!·.isChunk) ++ [.profileChunk 0 (s.bp.localProfile.take 64)] := by
  rw [State.beginExchange_eq]
  split <;> rfl

theorem State.beginExchange_events : (s.beginExchange h).body.events =
    if s.bp.link = .calling then raiseInto none (.linkState .exchanging none) s.body.events else s.body.events := by
  rw [State.beginExchange_eq]
  split <;> rfl

end

/-- Settles O45: the link state decides whether a HELLO is checked, and the first check that fails decides the rest. -/
theorem helloBeginsTheExchange : Obligations.HelloBeginsTheExchange := by
  intro s role period length check fn heard c h
  have arrives : exec c s = .next (s.helloArrives h).settle := exec_hello h (FnState.ne_faulted (.inl fn)) heard
  refine ⟨fun down => ?_, fun up => ?_, fun exchanging same => ?_, fun mine p role_mine period_mine checked => ?_⟩
  · simpa only [State.helloArrives, down] using arrives
  · simpa only [State.helloArrives, up] using arrives
  · simpa only [State.helloArrives, exchanging, if_pos same] using arrives
  · rw [State.helloArrives_checked checked, State.helloChecked_eq role_mine period_mine] at arrives
    refine ⟨fun conflict => ?_, fun roles periods => ?_, fun roles periods out => ?_,
      fun roles periods low high => ⟨s.beginExchange h, ?_, State.beginExchange_bp, State.beginExchange_ce,
        State.beginExchange_streams, State.beginExchange_fresh, fun calling => ?_, fun exchanging => ?_⟩⟩
    · rwa [if_pos conflict] at arrives
    · rwa [if_neg roles, if_pos periods] at arrives
    · rwa [if_neg roles, if_neg (not_not.mpr periods), if_pos out] at arrives
    · rwa [if_neg roles, if_neg (not_not.mpr periods),
        if_neg (not_or.mpr ⟨Nat.not_lt.mpr low, Nat.not_lt.mpr high⟩)] at arrives
    · rw [State.beginExchange_events, if_pos calling]
    · rw [State.beginExchange_events, exchanging, if_neg nofun]

/-! ### PROFILE_CHUNK and PROFILE_ACK -/

section

variable {s : State}

/-- A leader with both exchanges done reaches UP (R141). -/
theorem State.exchangeDone_reaches {o : Outgoing} {x : Incoming} (leader : s.ce.role = some .leader)
    (outgoing : s.bp.outgoing = some o) (sent : o.done = true) (incoming : s.bp.incoming = some x)
    (received : x.done = true) : s.exchangeDone = s.reachUp 0 :=
  if_pos (by simp [leader, outgoing, sent, incoming, received])

theorem State.exchangeDone_not_leader (follows : s.ce.role ≠ some .leader) : s.exchangeDone = s :=
  if_neg fun both => follows both.1

theorem State.exchangeDone_not_sent {o : Outgoing} (outgoing : s.bp.outgoing = some o) (sends : o.done = false) :
    s.exchangeDone = s :=
  if_neg (by simp [outgoing, sends])

theorem State.exchangeDone_not_received {x : Incoming} (incoming : s.bp.incoming = some x) (misses : x.done = false) :
    s.exchangeDone = s :=
  if_neg (by simp [incoming, misses])

end

section

variable {s : State} {number : Byte} {bytes : List Byte} {h : PeerHello} {x : Incoming}

theorem exec_profileChunk (number : Byte) (bytes : List Byte) (running : s.fn ≠ .faulted) (heard : s.lsig = true) :
    exec (.profileChunk number bytes) s = .next (s.chunkArrives number bytes).settle :=
  congrArg Outcome.next (State.event_hear _ running heard)

theorem State.chunkArrives_exchanging (exchanging : s.bp.link = .exchanging) (hello : s.bp.peerHello = some h)
    (incoming : s.bp.incoming = some x) : s.chunkArrives number bytes = s.stopHello.chunkMeasured h x number bytes := by
  simp only [State.chunkArrives, exchanging, hello, incoming]

theorem State.chunkMeasured_repeat (stored : number.toNat < x.next) :
    s.chunkMeasured h x number bytes = s.withDue (.profileAck number) :=
  if_pos stored

/-- A chunk that is not the one expected, or not of its length, fails the bring-up (R140). -/
theorem State.chunkMeasured_unexpected (fresh : x.next ≤ number.toNat)
    (unexpected : x.next < number.toNat ∨ chunkCount h.length.toNat ≤ number.toNat ∨
      bytes.length ≠ chunkLength h.length.toNat number.toNat) :
    s.chunkMeasured h x number bytes = s.bringUpFails .profileFailed .profileFailed :=
  (if_neg (Nat.not_lt.mpr fresh)).trans (if_pos unexpected)

/-- The incoming exchange with the chunk after the last one stored (R140). -/
def Incoming.store (x : Incoming) (bytes : List Byte) : Incoming :=
  { next := x.next + 1, bytes := x.bytes ++ bytes, done := x.done }

/-- The part with this incoming exchange, its last chunk acknowledged (R140). -/
def State.withStored (number : Byte) (x : Incoming) (s : State) : State :=
  State.withDue { s with bp := { s.bp with incoming := some x } } (.profileAck number)

/-- The chunk expected is stored, and the last one completes the profile (R140). -/
theorem State.chunkMeasured_expected (next : number.toNat = x.next) (listed : number.toNat < chunkCount h.length.toNat)
    (length : bytes.length = chunkLength h.length.toNat number.toNat) : s.chunkMeasured h x number bytes =
      if number.toNat + 1 = chunkCount h.length.toNat then s.lastChunk h number (x.store bytes)
      else s.withStored number (x.store bytes) := by
  have expected : ¬(x.next < number.toNat ∨ chunkCount h.length.toNat ≤ number.toNat ∨
      bytes.length ≠ chunkLength h.length.toNat number.toNat) := by
    rintro (later | beyond | wrong)
    · exact absurd next (Nat.ne_of_gt later)
    · exact absurd listed (Nat.not_lt.mpr beyond)
    · exact wrong length
  unfold State.chunkMeasured
  rw [if_neg (Nat.not_lt.mpr next.ge), if_neg expected, next]
  rfl

theorem State.lastChunk_unsound
    (unsound : ¬(checkValue x.bytes = h.check ∧ validProfile h.length.toNat x.bytes = true)) :
    s.lastChunk h number x = s.bringUpFails .profileFailed .profileFailed :=
  if_neg unsound

/-- The last chunk of a sound profile ends the incoming exchange (R140). -/
theorem State.lastChunk_sound (sound : checkValue x.bytes = h.check ∧ validProfile h.length.toNat x.bytes = true) :
    s.lastChunk h number x = (s.withStored number { x with done := true }).exchangeDone :=
  if_pos sound

end

/-- Settles O46: a chunk is a repeat, the one expected, or unexpected, and the last one brings a leader up whose own
profile is acknowledged. -/
theorem profileChunksAreStored : Obligations.ProfileChunksAreStored := by
  intro s number bytes fn heard c failed
  have arrives : exec c s = .next (s.chunkArrives number bytes).settle :=
    exec_profileChunk number bytes (FnState.ne_faulted (.inl fn)) heard
  refine ⟨fun early => ?_, fun up => ?_, fun h x exchanging hello incoming => ?_⟩
  · rcases early with link | link <;> simpa only [State.chunkArrives, link] using arrives
  · simpa only [State.chunkArrives, up, State.withDue] using arrives
  · intro n chunks k expected stored sound
    rw [State.chunkArrives_exchanging exchanging hello incoming] at arrives
    have fails (fresh : x.next ≤ k) (unexpected : x.next < k ∨ chunks ≤ k ∨ bytes.length ≠ expected) : failed := by
      rwa [State.chunkMeasured_unexpected fresh unexpected] at arrives
    have last (next : k = x.next) (ends : k + 1 = chunks) (length : bytes.length = expected) :
        exec c s = .next (s.stopHello.lastChunk h number (x.store bytes)).settle := by
      rwa [State.chunkMeasured_expected next (Nat.lt_of_succ_le ends.le) length,
        if_pos (show _ = chunkCount _ from ends)] at arrives
    have stores (next : k = x.next) : x.store bytes = stored := by simp only [Incoming.store, stored, next]
    refine ⟨fun again => ?_, fun unexpected => ?_, fun next listed wrong => fails next.ge (.inr (.inr wrong)),
      fun next more length => ?_, fun next ends length unsound => ?_, fun next ends length sound => ?_⟩
    · rwa [State.chunkMeasured_repeat again] at arrives
    · exact fails (unexpected.elim Nat.le_of_lt And.left) (unexpected.imp_right fun beyond => .inl beyond.2)
    · rwa [State.chunkMeasured_expected next (Nat.lt_of_succ_lt more) length,
        if_neg (show _ ≠ chunkCount _ from more.ne), stores next] at arrives
    · have ended := last next ends length
      rwa [stores next, State.lastChunk_unsound unsound] at ended
    · intro done
      have complete : exec c s = .next done.exchangeDone.settle := by
        have ended := last next ends length
        rwa [stores next, State.lastChunk_sound sound] at ended
      refine ⟨fun ⟨leader, o, outgoing, sent⟩ => ?_, fun waits => ?_⟩
      · rwa [State.exchangeDone_reaches (s := done) leader outgoing sent rfl rfl] at complete
      · rcases waits with follows | ⟨o, outgoing, sends⟩
        · rwa [State.exchangeDone_not_leader (s := done) follows] at complete
        · rwa [State.exchangeDone_not_sent (s := done) outgoing sends] at complete

section

variable {s : State} {number : Byte} {o : Outgoing} {x : Incoming}

theorem exec_profileAck (number : Byte) (running : s.fn ≠ .faulted) (heard : s.lsig = true) :
    exec (.profileAck number) s = .next (s.ackArrives number).settle :=
  congrArg Outcome.next (State.event_hear _ running heard)

/-- In EXCHANGING a PROFILE_ACK ends the HELLO frames, and that of the chunk in progress moves the exchange (R137,
R139). -/
theorem State.ackArrives_exchanging (exchanging : s.bp.link = .exchanging) (outgoing : s.bp.outgoing = some o) :
    s.ackArrives number =
      if o.done = false ∧ number.toNat = o.chunk then s.stopHello.chunkAcked o else s.stopHello := by
  simp only [State.ackArrives, exchanging, outgoing, if_true, Bool.not_eq_true']

theorem State.chunkAcked_more (more : o.chunk + 1 < chunkCount s.bp.localProfile.length) :
    s.chunkAcked o = s.sendChunk (o.chunk + 1) 1 :=
  if_pos more

/-- The part whose outgoing exchange is done, its answer timer stopped (R139). -/
def State.profileSent (o : Outgoing) (s : State) : State :=
  { s with bp := { s.bp with outgoing := some { o with timer := none, done := true } } }

theorem State.chunkAcked_last (last : chunkCount s.bp.localProfile.length ≤ o.chunk + 1) :
    s.chunkAcked o = (s.profileSent o).exchangeDone :=
  if_neg (Nat.not_lt.mpr last)

end

/-- Settles O47: a PROFILE_ACK of the chunk in progress sends the next, and that of the last ends the outgoing exchange.
-/
theorem profileAcksMoveTheExchange : Obligations.ProfileAcksMoveTheExchange := by
  intro s number fn heard c
  have arrives : exec c s = .next (s.ackArrives number).settle :=
    exec_profileAck number (FnState.ne_faulted (.inl fn)) heard
  refine ⟨fun elsewhere => ?_, fun o x exchanging outgoing incoming => ?_⟩
  · rwa [State.ackArrives, if_neg elsewhere] at arrives
  · intro chunks unsent quiet done
    have unsent_eq : ∀ fs, unsent fs = fs.filter (!·.isHello) := fun fs =>
      List.filter_congr fun f _ => by cases f <;> rfl
    have stops : quiet = s.stopHello := by
      simp only [quiet, unsent_eq]
      rfl
    have sent : done = s.stopHello.profileSent o := by
      simp only [done, stops]
      rfl
    rw [State.ackArrives_exchanging exchanging outgoing] at arrives
    rw [sent, stops]
    refine ⟨fun other => ?_, fun waits same more => ?_, fun waits same last leader received => ?_,
      fun waits same last stays => ?_⟩
    · rwa [if_neg (by rintro ⟨waits, same⟩; simp [waits, same] at other)] at arrives
    · rwa [if_pos ⟨waits, same⟩, State.chunkAcked_more (s := s.stopHello) more] at arrives
    all_goals rw [if_pos ⟨waits, same⟩, State.chunkAcked_last (s := s.stopHello) last] at arrives
    · rwa [State.exchangeDone_reaches (s := s.stopHello.profileSent o) leader rfl rfl incoming received] at arrives
    · rcases stays with follows | misses
      · rwa [State.exchangeDone_not_leader (s := s.stopHello.profileSent o) follows] at arrives
      · rwa [State.exchangeDone_not_received (s := s.stopHello.profileSent o) incoming misses] at arrives

end Sys2Proof.Machine
end

section
/-! SUPPORT. The ends of the writes of requests and of the Ring Interface (R134, R161 to R163, R172, R173). -/

namespace Sys2Proof.Machine

open Sys2Proof Host

section

variable {s : State} {id : Nat} {e : Entry}

theorem exec_readPeerProfileWritesEnd {addr : Addr} {data : List Byte} {length : Nat} (running : s.fn ≠ .faulted)
    (entry : s.body.entry id = some e) (work : e.work = .peerWrites addr data length) (ok : Bool) :
    exec (.readPeerProfileWritesEnd id ok) s = .next (s.writesEnd id ok length).settle := by
  refine congrArg Outcome.next ((State.event_eq running _).trans (congrArg State.settle ?_))
  simp only [entry, Option.map_some, work]

theorem exec_queryStreamWritesEnd {addr : Addr} {data : List Byte} (running : s.fn ≠ .faulted)
    (entry : s.body.entry id = some e) (work : e.work = .streamWrites addr data) (ok : Bool) :
    exec (.queryStreamWritesEnd id ok) s = .next (s.writesEnd id ok 64).settle := by
  refine congrArg Outcome.next ((State.event_eq running _).trans (congrArg State.settle ?_))
  simp only [entry, Option.map_some, work]

theorem exec_queryLinkWritesEnd {addr : Addr} {data : List Byte} (running : s.fn ≠ .faulted)
    (entry : s.body.entry id = some e) (work : e.work = .linkWrites addr data) (ok : Bool) :
    exec (.queryLinkWritesEnd id ok) s = .next (s.writesEnd id ok 128).settle := by
  refine congrArg Outcome.next ((State.event_eq running _).trans (congrArg State.settle ?_))
  simp only [entry, Option.map_some, work]

end

section

variable {s : State} {w : RingWrite} {before after : List RingWrite}

/-- The part with this list of writes of the Ring Interface in flight. -/
def State.withRingWrites (s : State) (ws : List RingWrite) : State := s.onBody fun b => { b with ringWrites := ws }

/-- The oldest write that `p` picks ends, and what its acceptance does follows (R161 to R163). -/
theorem State.ringWriteEnds_accepted {p : RingWrite → Bool} (writes : s.body.ringWrites = before ++ w :: after)
    (older : ∀ x ∈ before, p x = false) (picked : p w = true) : s.ringWriteEnds p true =
      (s.withRingWrites (before ++ after)).onBody (Body.ringWriteAccepted w.kind) := by
  have unpicked : ∀ x ∈ before, ¬p x = true := fun x mem => Bool.eq_false_iff.mp (older x mem)
  have first : s.body.ringWrites.find? p = some w :=
    writes ▸ List.find?_eq_some_iff_append.mpr ⟨picked, before, after, rfl, by simpa using older⟩
  have ended : s.body.ringWrites.eraseP p = before ++ after := by
    rw [writes, List.eraseP_append_right _ unpicked, List.eraseP_cons_of_pos picked]
  simp only [State.ringWriteEnds, first, if_true, State.withRingWrites, State.onBody, ended]

theorem RingWrite.isCompletion_eq_false_iff : w.isCompletion = false ↔ w.kind = .event ∨ w.kind = .interrupt := by
  unfold RingWrite.isCompletion
  cases w.kind <;> simp

theorem exec_completionWriteEnd {src : Source} {t : State} (running : s.fn ≠ .faulted)
    (writes : s.body.ringWrites = before ++ w :: after) (older : ∀ x ∈ before, x.kind = .event ∨ x.kind = .interrupt)
    (kind : w.kind = .completion src)
    (accepted : (s.withRingWrites (before ++ after)).onBody (Body.completionAccepted src) = t) :
    exec (.completionWriteEnd true) s = .next t.settle := by
  have ends := State.ringWriteEnds_accepted (p := RingWrite.isCompletion) writes
    (fun x mem => RingWrite.isCompletion_eq_false_iff.mpr (older x mem)) (by simp [RingWrite.isCompletion, kind])
  rw [kind] at ends
  exact congrArg Outcome.next ((State.event_eq running _).trans (congrArg State.settle (ends.trans accepted)))

theorem exec_eventWriteEnd (running : s.fn ≠ .faulted) (writes : s.body.ringWrites = before ++ w :: after)
    (older : ∀ x ∈ before, x.kind ≠ .event) (kind : w.kind = .event) :
    exec (.eventWriteEnd true) s = .next (s.withRingWrites (before ++ after)).settle := by
  have accepted := State.ringWriteEnds_accepted (p := fun w => w.kind == .event) writes
    (fun x mem => beq_eq_false_iff_ne.mpr (older x mem)) (beq_iff_eq.mpr kind)
  rw [kind] at accepted
  exact congrArg Outcome.next ((State.event_eq running _).trans (congrArg State.settle accepted))

theorem exec_interruptMessageWriteEnd (running : s.fn ≠ .faulted) (writes : s.body.ringWrites = before ++ w :: after)
    (older : ∀ x ∈ before, x.kind ≠ .interrupt) (kind : w.kind = .interrupt) :
    exec (.interruptMessageWriteEnd true) s = .next (s.withRingWrites (before ++ after)).settle := by
  have accepted := State.ringWriteEnds_accepted (p := fun w => w.kind == .interrupt) writes
    (fun x mem => beq_eq_false_iff_ne.mpr (older x mem)) (beq_iff_eq.mpr kind)
  rw [kind] at accepted
  exact congrArg Outcome.next ((State.event_eq running _).trans (congrArg State.settle accepted))

end

/-- Settles O25: the state of the function and the port's answer decide how a request ends, and the kind of an accepted
write what ends with it. -/
theorem writesOfRequestsAndRingsEnd : Obligations.WritesOfRequestsAndRingsEnd := by
  refine ⟨?_, ?_⟩
  · intro s id e ok fn entry ends
    have running := FnState.ne_faulted fn
    exact ⟨fun _ _ _ work => exec_readPeerProfileWritesEnd running entry work ok,
      fun _ _ work => exec_queryStreamWritesEnd running entry work ok,
      fun _ _ work => exec_queryLinkWritesEnd running entry work ok⟩
  · intro s w before after fn writes ended
    have running := FnState.ne_faulted fn
    refine ⟨fun kind older => exec_eventWriteEnd running writes older kind,
      fun kind older => exec_interruptMessageWriteEnd running writes older kind,
      fun older => ⟨fun id kind => exec_completionWriteEnd running writes older kind rfl, fun i st kind opened =>
        exec_completionWriteEnd running writes older kind ?_⟩⟩
    exact State.onBody_modify (s := ended) opened Stream.completionWritten

end Sys2Proof.Machine
end

section
/-! SUPPORT. What going down does to the streams and which events it raises (R143, R147). -/

namespace Sys2Proof.Machine

open Sys2Proof Host

/-! ### The streams -/

section

variable {st : Stream}

/-- What giving up a SENT packet makes of the sequence state (R113). -/
def SeqState.afterAbandon (abandons : Bool) (q : SeqState) : SeqState :=
  match q with
  | .bestEffortOut next flight n => .bestEffortOut next (flight && !abandons) n
  | q => q

theorem SeqState.afterAbandon_false (q : SeqState) : q.afterAbandon false = q := by
  cases q <;> simp [SeqState.afterAbandon]

theorem SeqState.afterAbandon_true (q : SeqState) : q.afterAbandon true = q.clearFlight := by
  cases q <;> simp [SeqState.afterAbandon, SeqState.clearFlight]

theorem Stream.sentIndex_eq_none_iff : st.sentIndex = none ↔ st.buffers.any Buffer.isSent = false := by
  simp [Stream.sentIndex, List.findIdx?_eq_none_iff]

/-- A SENT packet is discarded with its in-flight marker, and with none SENT nothing changes (R11, R37). -/
theorem Stream.abandon_eq (st : Stream) : st.abandon =
    { st.discard Buffer.isSent with seq := st.seq.afterAbandon (st.buffers.any Buffer.isSent) } := by
  rcases st.abandon_cases with ⟨none_sent, same⟩ | ⟨sent, gone⟩
  · have none_picked := Stream.sentIndex_eq_none_iff.mp none_sent
    rw [same, Stream.discard_of_none rfl none_picked, none_picked, SeqState.afterAbandon_false]
  · have picked : st.buffers.any Buffer.isSent = true :=
      (Bool.not_eq_false _).mp (Stream.sentIndex_eq_none_iff.not.mp sent)
    rw [gone, picked, SeqState.afterAbandon_true]

theorem Buffer.isDraining_of_isSent (b : Buffer) (sent : b.isSent = true) : b.isDraining = false := by
  cases b <;> simp_all [Buffer.isSent, Buffer.isDraining]

/-- The stream without the link, field by field (R15, R37, R113, R147). -/
theorem Stream.lostLink_eq (st : Stream) : st.lostLink = { st with
    state := if st.mayHalt then .halting else st.state
    cause := if st.mayHalt then some .linkLost else st.cause
    stage := if st.mayHalt then .waiting else st.stage
    profileChecked := false
    buffers := st.buffers.map fun b => if b.isSent then .free else b
    queue := st.queue.filter fun k => !(st.buffer k).isSent
    discarded := st.discarded + ((st.buffers.filter Buffer.isSent).map Buffer.count).sum
    seq := st.seq.afterAbandon (st.buffers.any Buffer.isSent) } := by
  have abandoned := st.abandon_eq
  rw [Stream.discard, map_occupancy_eq_count Buffer.isDraining_of_isSent] at abandoned
  unfold Stream.lostLink
  split
  · next may => simp only [Stream.beginHalt, HaltCause.abandons, if_true, abandoned]
  · next may => simp only [abandoned]

end

/-! ### The events -/

/-- A raised event touches only the pending entry that takes it (R174). -/
theorem mem_raiseInto_iff {source : Option StreamId} {d : Detail} {e : Event} (other : ¬e.takes source d)
    (es : List Event) : e ∈ raiseInto source d es ↔ e ∈ es := by
  have ne_taken : ∀ {x : Event}, x.takes source d → e ≠ x := fun taken same => other (same ▸ taken)
  induction es with
  | nil => simpa [raiseInto] using ne_taken ⟨rfl, rfl⟩
  | cons x es ih =>
    rw [raiseInto]
    split
    · next taken =>
      have ne_merged := ne_taken (x := { x with
        detail := d, count := if x.count < 255 then x.count + 1 else 255 }) ⟨taken.1, rfl⟩
      simp [ne_merged, ne_taken (x := x) taken]
    · simp [ih]

section

variable {b : Body} {i : StreamId} {st : Stream} {e : Event}

/-- A store event touches only the pending WATCH of its stream (R42, R174). -/
theorem Body.mem_put_events_iff {old new : Stream} (other : ∀ c, ¬e.takes (some i) (.watch c)) :
    e ∈ (b.put i old new).events ↔ e ∈ b.events := by
  rw [Body.put_eq]
  dsimp only
  split
  · exact mem_raiseInto_iff (other _) _
  · rfl

/-- A stream that halts raises STREAM_HALTED, between two store events of its own (R9). -/
theorem Body.mem_loseLinkOne_events_iff (other : ∀ c, ¬e.takes (some i) (.watch c)) (opened : b.stream i = some st) :
    e ∈ (b.loseLinkOne i).events ↔
      e ∈ if st.mayHalt then raiseInto (some i) (.streamHalted .linkLost) (b.put i st (st.beginHalt .linkLost)).events
        else b.events := by
  rw [Body.loseLinkOne_eq opened]
  split
  · rw [Body.mem_put_events_iff other, Body.raise_events]
  · rw [Body.mem_put_events_iff other]

/-- The turn of a stream leaves the events of the others. -/
theorem Body.mem_loseLinkOne_events_of_source_ne (other : e.source ≠ some i) :
    e ∈ (b.loseLinkOne i).events ↔ e ∈ b.events := by
  have never : ∀ d, ¬e.takes (some i) d := fun d taken => other taken.1
  cases opened : b.stream i with
  | none => rw [Body.loseLinkOne_none opened]
  | some st =>
    rw [Body.mem_loseLinkOne_events_iff (fun c => never _) opened]
    split
    · rw [mem_raiseInto_iff (never _), Body.mem_put_events_iff fun c => never _]
    · rfl

/-- The halts that are pending are no WATCH. -/
theorem Event.not_takes_watch {cause : HaltCause} (halted : e.detail = .streamHalted cause) (c : Bool) :
    ¬e.takes (some i) (.watch c) := by
  rintro ⟨-, kind⟩
  rw [halted] at kind
  exact absurd kind nofun

/-- The turn of a stream that does not halt leaves the halts that are pending. -/
theorem Body.mem_loseLinkOne_events_of_stays {cause : HaltCause}
    (stays : ∀ st, b.stream i = some st → st.mayHalt = false) (halted : e.detail = .streamHalted cause) :
    e ∈ (b.loseLinkOne i).events ↔ e ∈ b.events := by
  cases opened : b.stream i with
  | none => rw [Body.loseLinkOne_none opened]
  | some st =>
    rw [Body.mem_loseLinkOne_events_iff (Event.not_takes_watch halted) opened, stays st opened,
      if_neg Bool.false_ne_true]

theorem Body.loseLinkOne_raises_halt (opened : b.stream i = some st) (may : st.mayHalt = true) :
    ∃ e ∈ (b.loseLinkOne i).events, e.source = some i ∧ e.detail = .streamHalted .linkLost := by
  obtain ⟨e, mem, source, halted⟩ := exists_mem_raiseInto (some i) (.streamHalted .linkLost)
    (b.put i st (st.beginHalt .linkLost)).events
  refine ⟨e, (Body.mem_loseLinkOne_events_iff (Event.not_takes_watch halted) opened).mpr ?_, source, halted⟩
  rwa [if_pos may]

/-- Without a watch a stream raises its halt alone. -/
theorem Body.loseLinkOne_events_unwatched (opened : b.stream i = some st) (off : st.watch = none) :
    (b.loseLinkOne i).events =
      if st.mayHalt then raiseInto (some i) (.streamHalted .linkLost) b.events else b.events := by
  have put_events : ∀ {b : Body} {old new : Stream}, new.watch = none → (b.put i old new).events = b.events :=
    fun off => (Body.put_of_watch_kept i _ ((watchAfter_of_off off).trans (by rw [off]))).2
  have halt_off : (st.beginHalt .linkLost).watch = none := (st.beginHalt_watch _).trans off
  rw [Body.loseLinkOne_eq opened]
  split
  · rw [put_events (by simp [Stream.stored, watchAfter_of_off halt_off]), Body.raise_events, put_events halt_off]
  · rw [put_events (by simpa [Stream.lostLink_eq] using off)]

/-! ### The turns of a list of streams -/

/-- The turns of these streams, one after another. -/
def Body.loseLinkEach (l : List StreamId) (b : Body) : Body := l.foldl (fun b i => b.loseLinkOne i) b

theorem Body.loseLink_eq (b : Body) : b.loseLink = b.loseLinkEach (List.finRange 16) := by
  rw [Body.loseLink, Body.loseLinkAfter, Body.loseLinkEach]

theorem Body.loseLinkEach_cons (j : StreamId) (l : List StreamId) (b : Body) :
    b.loseLinkEach (j :: l) = (b.loseLinkOne j).loseLinkEach l := rfl

variable {l : List StreamId}

theorem Body.mem_loseLinkEach_events_of_source_ne (other : ∀ i ∈ l, e.source ≠ some i) :
    e ∈ (b.loseLinkEach l).events ↔ e ∈ b.events := by
  induction l generalizing b with
  | nil => rfl
  | cons j l ih =>
    obtain ⟨head, tail⟩ := List.forall_mem_cons.mp other
    rw [Body.loseLinkEach_cons, ih tail, Body.mem_loseLinkOne_events_of_source_ne head]

/-- An event of a stream whose turn is not to come stays. -/
theorem Body.mem_loseLinkEach_events_of_not_mem (past : i ∉ l) (source : e.source = some i) :
    e ∈ (b.loseLinkEach l).events ↔ e ∈ b.events :=
  Body.mem_loseLinkEach_events_of_source_ne fun _ mem same => past (Option.some.inj (source.symm.trans same) ▸ mem)

/-- Every stream that can halt has STREAM_HALTED pending after its turn (R9, R15). -/
theorem Body.loseLinkEach_raises_halt (distinct : l.Nodup) (mem : i ∈ l) (opened : b.stream i = some st)
    (may : st.mayHalt = true) :
    ∃ e ∈ (b.loseLinkEach l).events, e.source = some i ∧ e.detail = .streamHalted .linkLost := by
  induction l generalizing b with
  | nil => cases mem
  | cons j l ih =>
    obtain ⟨fresh, distinct⟩ := List.nodup_cons.mp distinct
    rw [Body.loseLinkEach_cons]
    by_cases turn : i = j
    · subst turn
      obtain ⟨e, mem, source, halted⟩ := Body.loseLinkOne_raises_halt opened may
      exact ⟨e, (Body.mem_loseLinkEach_events_of_not_mem fresh source).mpr mem, source, halted⟩
    · exact ih distinct ((List.mem_cons.mp mem).resolve_left turn) (((b.loseLinkOne_stream j i).2.1 turn).trans opened)

/-- No stream that stays raises a halt. -/
theorem Body.mem_loseLinkEach_events_of_stays {cause : HaltCause} (distinct : l.Nodup)
    (stays : ∀ st, b.stream i = some st → st.mayHalt = false) (source : e.source = some i)
    (halted : e.detail = .streamHalted cause) : e ∈ (b.loseLinkEach l).events ↔ e ∈ b.events := by
  induction l generalizing b with
  | nil => rfl
  | cons j l ih =>
    obtain ⟨fresh, distinct⟩ := List.nodup_cons.mp distinct
    rw [Body.loseLinkEach_cons]
    by_cases turn : i = j
    · subst turn
      rw [Body.mem_loseLinkEach_events_of_not_mem fresh source, Body.mem_loseLinkOne_events_of_stays stays halted]
    · rw [ih distinct (by rwa [(b.loseLinkOne_stream j i).2.1 turn]), Body.mem_loseLinkOne_events_of_source_ne]
      exact fun same => turn (Option.some.inj (source.symm.trans same))

/-- The halt of stream `i`, raised once. -/
def Event.lostLink (i : StreamId) : Event := { source := some i, detail := .streamHalted .linkLost, count := 1 }

/-- Stream `i` is open and can halt (R9). -/
def Body.canHalt (b : Body) (i : StreamId) : Bool := (b.stream i).any Stream.mayHalt

/-- Without watches and with no event of these streams pending, the halts join in the order of the turns (R9). -/
theorem Body.loseLinkEach_events (distinct : l.Nodup)
    (unwatched : ∀ i ∈ l, ∀ st, b.stream i = some st → st.watch = none)
    (none_pending : ∀ i ∈ l, ∀ e ∈ b.events, e.source ≠ some i) :
    (b.loseLinkEach l).events = b.events ++ (l.filter b.canHalt).map Event.lostLink := by
  induction l generalizing b with
  | nil => simp [Body.loseLinkEach]
  | cons j l ih =>
    obtain ⟨fresh, distinct⟩ := List.nodup_cons.mp distinct
    obtain ⟨off, unwatched⟩ := List.forall_mem_cons.mp unwatched
    obtain ⟨none_here, none_pending⟩ := List.forall_mem_cons.mp none_pending
    have turn : (b.loseLinkOne j).events = b.events ++ if b.canHalt j then [Event.lostLink j] else [] := by
      unfold Body.canHalt
      cases opened : b.stream j with
      | none => simp [Body.loseLinkOne_none opened]
      | some st =>
        rw [Body.loseLinkOne_events_unwatched opened (off st opened),
          raiseInto_of_absent fun e mem taken => none_here e mem taken.1]
        cases may : st.mayHalt <;> simp [may, Event.lostLink]
    have kept : ∀ i ∈ l, (b.loseLinkOne j).stream i = b.stream i := fun i mem =>
      (b.loseLinkOne_stream j i).2.1 fun same => fresh (same ▸ mem)
    have same_halts : l.filter (b.loseLinkOne j).canHalt = l.filter b.canHalt :=
      List.filter_congr fun i mem => by rw [Body.canHalt, kept i mem, Body.canHalt]
    rw [Body.loseLinkEach_cons, ih distinct, turn, same_halts, List.filter_cons]
    · split <;> simp
    · exact fun i mem st opened => unwatched i mem st (kept i mem ▸ opened)
    · intro i mem e pending
      rw [turn, List.mem_append] at pending
      rcases pending with pending | pending
      · exact none_pending i mem e pending
      · split at pending
        · rw [List.mem_singleton.mp pending]
          exact fun same => fresh (Option.some.inj same ▸ mem)
        · cases pending

end

/-! ### Going down -/

section

variable {s : State} {cause : DownCause} {status : Status}

@[simp] theorem State.bringUpFails_events : (s.bringUpFails cause status).body.events =
    raiseInto none (.linkState .down (some cause)) s.body.events := by
  simp [State.bringUpFails, Body.completePending_eq, Body.dropDue]

@[simp] theorem State.bringUpFails_streams : (s.bringUpFails cause status).body.streams = s.body.streams := by
  simp [State.bringUpFails, Body.completePending_eq, Body.dropDue]

/-- The LINK_UP that is pending completes with the bring-up (R143). -/
theorem State.bringUpFails_completes {e : Entry} (mem : e ∈ s.body.table) (in_flight : e.held = none)
    (pending : s.bp.pendingLinkUp = some e.id) : e.complete status 0 ∈ (s.bringUpFails cause status).body.table := by
  simp only [State.bringUpFails, Body.completePending_eq]
  exact List.mem_map.mpr ⟨e, mem, if_pos ⟨in_flight, pending⟩⟩

/-- The body whose streams lose an UP link: LINK_STATE comes before their events (R147). -/
def State.downRaised (s : State) (cause : DownCause) : Body := s.body.raise none (.linkState .down (some cause))

theorem State.downRaised_stream (i : StreamId) : (s.downRaised cause).stream i = s.body.stream i :=
  Body.raise_stream ..

theorem State.downRaised_events :
    (s.downRaised cause).events = raiseInto none (.linkState .down (some cause)) s.body.events := rfl

theorem Body.stream_of_streams_eq {b b' : Body} (same : b.streams = b'.streams) (i : StreamId) :
    b.stream i = b'.stream i := by
  rw [Body.stream, same, Body.stream]

theorem State.leaveUp_stream (i : StreamId) :
    (s.leaveUp cause).body.stream i = (s.downRaised cause).loseLink.stream i :=
  Body.stream_of_streams_eq (by rw [State.leaveUp_body, State.downRaised]) i

theorem State.leaveUp_table : (s.leaveUp cause).body.table = s.body.table := by
  rw [State.leaveUp_body, Body.loseLink_table, Body.raise_table]

theorem State.leaveUp_events :
    (s.leaveUp cause).body.events = ((s.downRaised cause).loseLinkEach (List.finRange 16)).events := by
  rw [State.leaveUp_body, Body.loseLink_eq, State.downRaised]

/-- Leaving UP closes and opens no stream, and takes the link from each open one (R15, R147). -/
theorem State.leaveUp_streams (s : State) (cause : DownCause) :
    (∀ i, (s.leaveUp cause).body.stream i = none ↔ s.body.stream i = none) ∧
      ∀ i st, s.body.stream i = some st →
        ∃ w, (s.leaveUp cause).body.stream i = some { st.lostLink with watch := w } := by
  simp only [State.leaveUp_stream, ← State.downRaised_stream (s := s) (cause := cause)]
  exact (s.downRaised cause).loseLink_streams

end

/-- Settles O50: a bring-up that fails leaves the streams, and leaving UP gives each open one its turn. -/
theorem goingDown : Obligations.GoingDown := by
  intro s cause status
  refine ⟨fun t ended => ?_, fun t ended => ?_⟩
  · rw [ended]
    exact ⟨rfl, rfl, State.bringUpFails_streams, State.bringUpFails_events,
      fun e mem in_flight pending => State.bringUpFails_completes mem in_flight pending⟩
  rw [ended]
  obtain ⟨none_iff, lost⟩ := s.leaveUp_streams cause
  have not_taken : ∀ {e : Event} {i : StreamId}, e.source = some i → ¬e.takes none (.linkState .down (some cause)) :=
    fun source taken => nomatch taken.1.symm.trans source
  refine ⟨rfl, rfl, rfl, rfl, rfl, rfl, rfl, rfl, fun synced => ⟨if_neg synced, if_neg synced⟩,
    fun lost => ⟨if_pos lost, if_pos lost⟩, fun answered => if_neg answered, fun silent => if_pos silent, ?linkState,
    ?halts, ?stays, ?listed, rfl, State.leaveUp_table, none_iff, ?streams⟩
  case linkState =>
    obtain ⟨e, mem, source, detail⟩ := exists_mem_raiseInto none (.linkState .down (some cause)) s.body.events
    refine ⟨e, ?_, source, detail⟩
    rwa [State.leaveUp_events, Body.mem_loseLinkEach_events_of_source_ne, State.downRaised_events]
    exact fun i _ => source ▸ nofun
  case halts =>
    intro i st opened may
    rw [State.leaveUp_events]
    exact Body.loseLinkEach_raises_halt nodup_streams (List.mem_finRange i)
      (State.downRaised_stream i |>.trans opened) may
  case stays =>
    intro i stays e source ⟨c, halted⟩
    rw [← State.downRaised_stream (cause := cause)] at stays
    rw [State.leaveUp_events, Body.mem_loseLinkEach_events_of_stays nodup_streams stays source halted,
      State.downRaised_events, mem_raiseInto_iff (not_taken source)]
  case listed =>
    intro none_pending unwatched
    have only_down : (s.downRaised cause).events =
        [{ source := none, detail := .linkState .down (some cause), count := 1 }] := by
      rw [State.downRaised_events, none_pending, raiseInto]
    rw [State.leaveUp_events, Body.loseLinkEach_events nodup_streams, only_down]
    · rfl
    · exact fun i _ st opened => unwatched i st opened
    · intro i _ e mem
      rw [only_down, List.mem_singleton] at mem
      rw [mem]
      nofun
  case streams =>
    intro i st st' opened opened'
    obtain ⟨w, after⟩ := lost i st opened
    obtain rfl : { st.lostLink with watch := w } = st' := Option.some.inj (after.symm.trans opened')
    rw [Stream.lostLink_eq]
    rfl

end Sys2Proof.Machine
end

section
/-! SUPPORT. What a NOTIFY does, by the ring it names and the index it gives (R153, R154, R158, R163). -/

namespace Sys2Proof.Machine

open Sys2Proof Host

/-! ### A producer NOTIFY of a host-written ring (R154) -/

section

variable (index : Nat) (r : HostRing)

theorem HostRing.inSpan_iff (p : Nat) :
    r.inSpan p = true ↔ ringSub r.size p r.taken < ringSub r.size r.posted r.taken := decide_eq_true_iff

theorem HostRing.mem_post_returned {p : Nat × BitVec 256} : p ∈ (r.post index).returned ↔
    p ∈ r.returned ∧ ringSub r.size p.1 r.taken < ringSub r.size index r.taken := by
  simp [HostRing.post, HostRing.inSpan_iff]

theorem HostRing.post_positions : (r.post index).fetches.map Fetch.position = r.fetches.map Fetch.position := by
  simp [HostRing.post, Function.comp_def]

/-- A fetch keeps its place, and is cut off where its position lies outside the new span. -/
theorem HostRing.post_fetch {k : Nat} {f : Fetch} (at_k : r.fetches[k]? = some f) :
    ∃ f', (r.post index).fetches[k]? = some f' ∧ (f'.dropped = true ↔
      f.dropped = true ∨ ringSub r.size index r.taken ≤ ringSub r.size f.position r.taken) := by
  refine ⟨_, by rw [HostRing.post, List.getElem?_map, at_k]; rfl, ?_⟩
  simp [← Bool.not_eq_true, HostRing.inSpan_iff]

end

/-! ### A NOTIFY as an event -/

theorem exec_notify {s : State} {v : Word} {b : Body} (decoded : s.fn = .running ∨ s.fn = .stopping)
    (notified : s.body.notify (s.fn == .running) (notifyRing v) (notifyIndex v) (notifyArm v) = b) :
    exec (.notify v) s = .next (State.settle { s with body := b }) := by
  refine congrArg Outcome.next ((State.event_eq (FnState.ne_faulted decoded) _).trans (congrArg State.settle ?_))
  rw [State.notifyWrite, if_pos decoded, State.onBody, notified]

section

variable {b : Body} {running : Bool} (index : BitVec 16) (arm : Bool)

theorem Body.notify_not_running {ring : Nat} (host : ring ≤ 16) : b.notify false ring index arm = b :=
  if_pos ⟨host, rfl⟩

theorem Body.notify_admin {r : HostRing} (configured : b.admin = some r) : b.notify true 0 index arm =
    if index.toNat < r.size then { b with admin := some (r.post index.toNat) } else b.badNotify 0 index := by
  simp [Body.notify, configured]

theorem Body.notify_work {i : StreamId} {st : Stream} (opened : b.stream i = some st) :
    b.notify true (i.val + 1) index arm =
      if index.toNat < st.ring.size then b.put i st { st with ring := st.ring.post index.toNat }
      else b.badNotify (i.val + 1) index := by
  have named : i.val + 1 ≤ 16 := i.isLt
  simp [Body.notify, opened, named]

theorem Body.notify_closed {i : StreamId} (closed : b.stream i = none) :
    b.notify true (i.val + 1) index arm = b.badNotify (i.val + 1) index := by
  have named : i.val + 1 ≤ 16 := i.isLt
  simp [Body.notify, closed, named]

/-- The ring number of a completion ring is past those of the host-written rings. -/
theorem completion_ring_number (c : Fin 4) : ¬17 + c.val ≤ 16 ∧ 17 + c.val ≤ 20 := by omega

theorem Body.notify_completion {c : Fin 4} {cr : CompletionRing} (configured : b.completion[c] = some cr) :
    b.notify running (17 + c.val) index arm = b.notifyPart (17 + c.val) index arm cr.ring fun r b => { b with
      completion := b.completion.set c (some { cr with ring := r }) } := by
  obtain ⟨not_read, named⟩ := completion_ring_number c
  simp only [Fin.getElem_fin] at configured
  simp [Body.notify, not_read, named, configured]

theorem Body.notify_unconfigured {c : Fin 4} (unconfigured : b.completion[c] = none) :
    b.notify running (17 + c.val) index arm = b.badNotify (17 + c.val) index := by
  obtain ⟨not_read, named⟩ := completion_ring_number c
  simp only [Fin.getElem_fin] at unconfigured
  simp [Body.notify, not_read, named, unconfigured]

theorem Body.notify_event {r : PartRing} (configured : b.event = some r) : b.notify running 21 index arm =
    b.notifyPart 21 index arm r fun r b => { b with event := some r } := by
  simp [Body.notify, configured]

theorem Body.notify_unnamed {ring : Nat} (past : 21 < ring) :
    b.notify running ring index arm = b.badNotify ring index := by
  have not_read : ¬ring ≤ 16 := by omega
  have not_completion : ¬ring ≤ 20 := by omega
  have not_event : ring ≠ 21 := by omega
  have not_admin : ring ≠ 0 := by omega
  simp [Body.notify, not_read, not_completion, not_event, not_admin]

end

/-- Settles O7: the ring that a producer NOTIFY leaves is the one `HostRing.post` makes of it. -/
theorem notifyPostsRecords : Obligations.NotifyPostsRecords := by
  intro s v r running below
  refine ⟨r.post (notifyIndex v).toNat, rfl, rfl, rfl, rfl, rfl, fun p => r.mem_post_returned _, r.post_positions _,
    fun k f at_k => r.post_fetch _ at_k, fun admin configured => ?_, fun i st work opened ring => ?_⟩
  · refine exec_notify (.inl running) ?_
    rw [running, admin]
    exact (Body.notify_admin _ _ configured).trans (if_pos below)
  · subst ring
    refine exec_notify (.inl running) ?_
    rw [running, work]
    exact (Body.notify_work _ _ opened).trans (if_pos below)

/-! ### A consumer NOTIFY of a part-written ring (R158, R163) -/

section

variable (index : BitVec 16) (arm : Bool) (r : PartRing)

/-- The interrupt message of a ring. -/
def PartRing.message : RingWrite := { kind := .interrupt, addr := r.intAddr, data := le 4 r.intValue.toNat }

/-- A ring that is ARMED, or that ARM arms, sends its message at once if it has entries unconsumed. -/
theorem PartRing.consume_eq (index : Nat) : r.consume index arm =
    if (r.armed = true ∨ arm = true) ∧ r.put ≠ index then ({ r with freed := index, armed := false }, [r.message])
    else ({ r with freed := index, armed := r.armed || arm }, []) := by
  simp only [PartRing.consume, PartRing.interrupt, Bool.or_eq_true]
  rfl

variable {index r} {b : Body} {ring : Nat} {store : PartRing → Body → Body}

theorem Body.notifyPart_frees (below : index.toNat < r.size)
    (span : ringSub r.size index.toNat r.freed ≤ ringSub r.size r.put r.freed) :
    b.notifyPart ring index arm r store =
      { store (r.consume index.toNat arm).1 b with ringWrites := b.ringWrites ++ (r.consume index.toNat arm).2 } :=
  if_pos ⟨below, decide_eq_true span⟩

theorem Body.notifyPart_bad (bad : r.size ≤ index.toNat ∨
      ringSub r.size r.put r.freed < ringSub r.size index.toNat r.freed) :
    b.notifyPart ring index arm r store = b.badNotify ring index := by
  refine if_neg fun ⟨below, span⟩ => ?_
  rcases bad with beyond | ahead
  · exact absurd below (Nat.not_lt_of_le beyond)
  · exact absurd (of_decide_eq_true span) (Nat.not_le_of_lt ahead)

end

/-! ### A NOTIFY that is ignored or bad (R153) -/

/-- Outside RUNNING and STOPPING a NOTIFY is not decoded. -/
theorem exec_notify_undecoded {s : State} (v : Word) (undecoded : s.fn = .off ∨ s.fn = .starting ∨ s.fn = .faulted) :
    exec (.notify v) s = .next s := by
  refine congrArg Outcome.next ?_
  by_cases faulted : s.fn = .faulted
  · exact State.event_faulted faulted _
  · have stands : ¬(s.fn = .running ∨ s.fn = .stopping) := by rcases undecoded with h | h | h <;> simp [h]
    rw [State.event_eq faulted, State.notifyWrite, if_neg stands, State.settle, if_neg (stands ∘ .inl),
      if_neg (stands ∘ .inr)]

/-- A bad NOTIFY of a ring that the part reads: one past the rings there are, of a CLOSED stream, or with an index past
the ring's end. -/
theorem Body.notify_bad_read {b : Body} {index : BitVec 16} (arm : Bool) {ring : Nat} (bad : 21 < ring ∨
      (ring = 0 ∧ ∃ r, b.admin = some r ∧ r.size ≤ index.toNat) ∨
      (∃ i : StreamId, ring = i.val + 1 ∧ b.stream i = none) ∨
      (∃ (i : StreamId) (st : Stream), ring = i.val + 1 ∧ b.stream i = some st ∧ st.ring.size ≤ index.toNat)) :
    b.notify true ring index arm = b.badNotify ring index := by
  rcases bad with past | ⟨rfl, r, configured, beyond⟩ | ⟨i, rfl, closed⟩ | ⟨i, st, rfl, opened, beyond⟩
  · exact Body.notify_unnamed index arm past
  · exact (Body.notify_admin index arm configured).trans (if_neg (Nat.not_lt_of_le beyond))
  · exact Body.notify_closed index arm closed
  · exact (Body.notify_work index arm opened).trans (if_neg (Nat.not_lt_of_le beyond))

/-- A bad NOTIFY of a ring that the part writes: one that is not configured, or with an index past the ring's end or
ahead of what has been written. -/
theorem Body.notify_bad_written {b : Body} {index : BitVec 16} (running arm : Bool) {ring : Nat}
    (bad : (∃ c : Fin 4, ring = 17 + c.val ∧ b.completion[c] = none) ∨
      (∃ (c : Fin 4) (cr : CompletionRing), ring = 17 + c.val ∧ b.completion[c] = some cr ∧
        (cr.ring.size ≤ index.toNat ∨ ringSub cr.ring.size cr.ring.put cr.ring.freed <
          ringSub cr.ring.size index.toNat cr.ring.freed)) ∨
      (∃ r, ring = 21 ∧ b.event = some r ∧ (r.size ≤ index.toNat ∨
        ringSub r.size r.put r.freed < ringSub r.size index.toNat r.freed))) :
    b.notify running ring index arm = b.badNotify ring index := by
  rcases bad with ⟨c, rfl, unconfigured⟩ | ⟨c, cr, rfl, configured, bad⟩ | ⟨r, rfl, configured, bad⟩
  · exact Body.notify_unconfigured index arm unconfigured
  · exact (Body.notify_completion index arm configured).trans (Body.notifyPart_bad arm bad)
  · exact (Body.notify_event index arm configured).trans (Body.notifyPart_bad arm bad)

/-- Settles O8: a NOTIFY in span leaves what `PartRing.consume` makes of the ring; a bad one is bad by the ring it
names. -/
theorem notifyFreesEntriesOrIsBad : Obligations.NotifyFreesEntriesOrIsBad := by
  refine ⟨fun s v r decoded below span => ?_, fun s v => ⟨exec_notify_undecoded v, fun stopping host => ?_, ?_⟩⟩
  · refine ⟨(r.consume (notifyIndex v).toNat (notifyArm v)).1, (r.consume (notifyIndex v).toNat (notifyArm v)).2, ?_,
      fun c cr named configured ring => ?_, fun named configured => ?_⟩
    · rw [PartRing.consume_eq]
      split
      · exact ⟨rfl, rfl⟩
      · exact ⟨rfl, rfl⟩
    · subst ring
      refine exec_notify decoded ?_
      rw [named, Body.notify_completion _ _ configured, Body.notifyPart_frees _ below span]
    · refine exec_notify decoded ?_
      rw [named, Body.notify_event _ _ configured, Body.notifyPart_frees _ below span]
  · refine exec_notify (.inr stopping) ?_
    rw [stopping]
    exact Body.notify_not_running _ _ host
  · rintro badAmongRead badAmongWritten (⟨running, bad⟩ | ⟨decoded, bad⟩)
    · refine exec_notify (.inl running) ?_
      rw [running]
      exact Body.notify_bad_read _ bad
    · exact exec_notify decoded (Body.notify_bad_written _ _ bad)

end Sys2Proof.Machine
end

section
/-! SUPPORT. How an event settles (9.5, 11.2): the order of a stream's actions, the run of a stream, what settling
leaves of the streams, and the end of a stop (R112, R149, R160, R161, R175, R181). -/

namespace Sys2Proof.Machine

open Sys2Proof

/-! ### The first action that is enabled -/

section

variable {α : Type} {os : List (Option α)}

theorem firstSome_eq_none_iff : firstSome os = none ↔ ∀ o ∈ os, o = none := by
  induction os with
  | nil => simp [firstSome]
  | cons o os ih => cases o <;> simp [firstSome, ih]

theorem firstSome_eq_some_iff {a : α} : firstSome os = some a ↔
    ∃ before after, os = before ++ some a :: after ∧ ∀ o ∈ before, o = none := by
  induction os with
  | nil => simp [firstSome]
  | cons o os ih =>
    cases o with
    | some x =>
      constructor
      · rintro ⟨⟩
        exact ⟨[], os, rfl, nofun⟩
      · rintro ⟨_ | ⟨o, before⟩, after, split, none_before⟩
        · exact (List.cons.inj split).1
        · exact absurd (none_before _ (List.mem_cons_self ..)) ((List.cons.inj split).1 ▸ nofun)
    | none =>
      refine ih.trans ⟨?_, ?_⟩
      · rintro ⟨before, after, rfl, none_before⟩
        exact ⟨none :: before, after, rfl, by simpa using none_before⟩
      · rintro ⟨_ | ⟨o, before⟩, after, split, none_before⟩
        · cases split
        · exact ⟨before, after, (List.cons.inj split).2, fun o mem => none_before o (List.mem_cons_of_mem _ mem)⟩

end

/-! ### The run of one stream -/

section

variable {env : Env} {i : StreamId} {b : Body} {st : Stream}

theorem Body.runStream_closed (n : Nat) (closed : b.stream i = none) : b.runStream env n i = b := by
  cases n with
  | zero => rfl
  | succ n => rw [Body.runStream, closed]

theorem Body.runStream_rests (n : Nat) (opened : b.stream i = some st) (rests : st.internal env i = none) :
    b.runStream env n i = b := by
  cases n with
  | zero => rfl
  | succ n => simp only [Body.runStream, opened, rests]

theorem Body.runStream_acts {st' : Stream} {effect : Effect} (n : Nat) (opened : b.stream i = some st)
    (acts : st.internal env i = some (st', effect)) :
    b.runStream env (n + 1) i = ((b.put i st st').applyEffect env i st' effect).runStream env n i := by
  simp only [Body.runStream, opened, acts]

end

/-! ### What settling leaves of the streams -/

/-- Every stream that is open in `b'` was open in `b`, with the same parameters. -/
def Body.OpenFrom (b b' : Body) : Prop :=
  ∀ i st', b'.stream i = some st' → ∃ st, b.stream i = some st ∧ st'.fixed = st.fixed

section

variable {b b' b'' : Body} {i : StreamId} {st st' : Stream}

theorem Body.OpenFrom.of_streams (same : b'.streams = b.streams) : b.OpenFrom b' := fun i st' opened =>
  ⟨st', (Body.stream_of_streams_eq same i).symm.trans opened, rfl⟩

theorem Body.OpenFrom.trans (h : b.OpenFrom b') (h' : b'.OpenFrom b'') : b.OpenFrom b'' := by
  intro i st'' opened
  obtain ⟨st', opened', same'⟩ := h' i st'' opened
  obtain ⟨st, opened'', same⟩ := h i st' opened'
  exact ⟨st, opened'', same'.trans same⟩

theorem Body.OpenFrom.after (h' : b'.OpenFrom b'') (h : b.OpenFrom b') : b.OpenFrom b'' := h.trans h'

theorem Body.openFrom_put (opened : b.stream i = some st) (same : st'.fixed = st.fixed) :
    b.OpenFrom (b.put i st st') := by
  intro j new opened'
  by_cases at_i : j = i
  · subst at_i
    rw [Body.put_stream_self, Option.some_inj] at opened'
    exact ⟨st, opened, opened' ▸ same⟩
  · rw [Body.put_stream_ne at_i] at opened'
    exact ⟨new, opened', rfl⟩

theorem Body.openFrom_modify {f : Stream → Stream} (same : ∀ st, (f st).fixed = st.fixed) :
    b.OpenFrom (b.modify i f) := by
  cases h : b.stream i with
  | none => rw [Body.modify_none h]; exact .of_streams rfl
  | some st => rw [Body.modify_some h]; exact Body.openFrom_put h (same st)

theorem Body.openFrom_release (up : Bool) : b.OpenFrom (b.release up i st) := by
  intro j new opened
  by_cases at_i : j = i
  · rw [at_i, Body.release_stream_self] at opened
    cases opened
  · rw [Body.release_stream_ne at_i] at opened
    exact ⟨new, opened, rfl⟩

theorem Body.openFrom_act {env : Env} {e : Effect} (opened : b.stream i = some st)
    (acts : st.internal env i = some (st', e)) : b.OpenFrom (b.act env i st st' e) := by
  refine (Body.openFrom_put opened (Stream.fixed_internal acts)).trans ?_
  cases e with
  | released => exact Body.openFrom_release env.up
  | _ => exact .of_streams rfl

theorem Body.openFrom_setHeldStage (src : Source) (stage : HeldStage) (b : Body) :
    b.OpenFrom (b.setHeldStage src stage) := by
  cases src with
  | stream i => exact Body.openFrom_modify fun _ => rfl
  | admin id => exact .of_streams rfl

theorem Body.openFrom_joinWaiting (b : Body) (src : Source) : b.OpenFrom (b.joinWaiting src) := by
  unfold Body.joinWaiting
  split
  · split
    · exact (Body.openFrom_setHeldStage src .waiting _).after (.of_streams rfl)
    · exact .of_streams rfl
  · exact .of_streams rfl

theorem Body.openFrom_issueCompletions (n : Nat) (c : Fin 4) (b : Body) : b.OpenFrom (b.issueCompletions n c) := by
  induction n generalizing b with
  | zero => exact .of_streams rfl
  | succ n ih =>
    rw [Body.issueCompletions]
    split
    · split
      · split
        · split
          · exact (ih _).after ((Body.openFrom_setHeldStage _ .writing _).after (.of_streams rfl))
          · exact (ih _).after (.of_streams rfl)
        · exact .of_streams rfl
      · exact .of_streams rfl
    · exact .of_streams rfl

theorem Body.issueEvents_streams (n : Nat) (b : Body) : (b.issueEvents n).streams = b.streams := by
  induction n generalizing b with
  | zero => rfl
  | succ n ih =>
    rw [Body.issueEvents]
    split
    · split
      · exact ih _
      · rfl
    · rfl

theorem Body.fetchAdmin_streams (env : Env) (n : Nat) (b : Body) : (b.fetchAdmin env n).streams = b.streams := by
  induction n generalizing b with
  | zero => rfl
  | succ n ih =>
    rw [Body.fetchAdmin]
    split
    · split
      · exact ih _
      · rfl
    · rfl

theorem Body.runTurns_streams (n : Nat) (b : Body) : (b.runTurns n).streams = b.streams := by
  induction n generalizing b with
  | zero => rfl
  | succ n ih =>
    rw [Body.runTurns]
    split
    · dsimp only
      split
      · split
        · rfl
        · split
          · exact ih _
          · exact ih _
      · exact ih _
    · rfl

theorem Stream.fixed_sendHead {k : Nat} {mark bit : Bool} {data : List Byte}
    (head : st.sendHead = some (st', k, mark, bit, data)) : st'.fixed = st.fixed := by
  unfold Stream.sendHead at head
  split at head
  · cases head
    exact st.fixed_setBuffer _ _
  · cases head
    exact st.fixed_setBuffer _ _
  · cases head

theorem Body.openFrom_scan (b : Body) : b.OpenFrom b.scan := by
  unfold Body.scan
  split
  · split
    · next st opened =>
      split
      · next head => exact (Body.openFrom_put opened (Stream.fixed_sendHead head)).trans (.of_streams rfl)
      · exact .of_streams rfl
    · exact .of_streams rfl
  · exact .of_streams rfl

theorem Body.openFrom_startFrame (env : Env) (b : Body) : b.OpenFrom (b.startFrame env) := by
  unfold Body.startFrame
  split
  · exact .of_streams rfl
  split
  · exact .of_streams rfl
  split
  · next f _ _ => cases f <;> exact .of_streams rfl
  split
  · have turned : b.OpenFrom (b.runTurns 17) := .of_streams (b.runTurns_streams 17)
    dsimp only
    split
    · exact turned.trans (Body.openFrom_scan _)
    · exact turned
  · exact .of_streams rfl

theorem Body.openFrom_unconfigure (b : Body) : b.OpenFrom b.unconfigure := .of_streams rfl

/-- Settling opens no stream and changes no stream's parameters. -/
theorem Body.openFrom_settle (env : Env) (b : Body) : b.OpenFrom (b.settle env) :=
  Body.settle_invariant (P := b.OpenFrom) (fun _ _ _ _ _ h opened acts => h.trans (Body.openFrom_act opened acts))
    (fun x src h => h.trans (x.openFrom_joinWaiting src)) (fun x n c h => h.trans (x.openFrom_issueCompletions n c))
    (fun _ h => h.trans (.of_streams rfl)) (fun x h => h.trans (x.openFrom_startFrame env))
    (fun x n h => h.trans (.of_streams (x.issueEvents_streams n)))
    (fun x n h => h.trans (.of_streams (x.fetchAdmin_streams env n))) b (.of_streams rfl)

end

@[simp] theorem State.stopEnds_body (s : State) : s.stopEnds.body = s.body.unconfigure := rfl

theorem State.openFrom_settle (s : State) : s.body.OpenFrom s.settle.body := by
  rcases s.settle_cases with ⟨-, -, same⟩ | ⟨-, same⟩ | ⟨-, same⟩
  · rw [same]
    exact .of_streams rfl
  · rw [same, State.onBody_body]
    exact Body.openFrom_settle s.env s.body
  · rw [same, State.stopEnds_body, State.onBody_body]
    exact (Body.openFrom_settle s.env s.body).trans (Body.openFrom_unconfigure _)

/-! ### The end of a stop (R181) -/

theorem Body.allClosed_iff (b : Body) : b.streams.toList.all Option.isNone = true ↔ b.allClosed := by
  simp [Body.allClosed, Body.stream, toList_eq_map_finRange]

theorem LinkTransfer.not_hasFarewell_iff (lt : LinkTransfer) : lt.hasFarewell = false ↔
    (∀ f ∈ lt.due ++ lt.fresh, f.isFarewell = false) ∧ lt.lane ≠ some (.control .farewell) := by
  rw [LinkTransfer.hasFarewell, Bool.or_eq_false_iff]
  refine and_congr (by simp only [List.any_eq_false, Bool.not_eq_true]) ?_
  rcases lt.lane with _ | f | ⟨h, k, p⟩
  · simp
  · cases f <;> simp [ControlFrame.isFarewell]
  · simp

/-- What a stop waits for: every stream CLOSED, no request, no write, no admin fetch and no FAREWELL left. -/
theorem Body.stopDone_iff (b : Body) : b.stopDone = true ↔
    b.allClosed ∧ b.table = [] ∧ b.ringWrites = [] ∧ (∀ r, b.admin = some r → r.fetches = []) ∧
      (∀ f ∈ b.lt.due ++ b.lt.fresh, f.isFarewell = false) ∧ b.lt.lane ≠ some (.control .farewell) := by
  rw [← b.allClosed_iff, ← b.lt.not_hasFarewell_iff, Body.stopDone]
  cases h : b.admin <;> simp [and_assoc, and_comm, and_left_comm]

section

variable {s : State}

theorem State.settle_running (running : s.fn = .running) : s.settle = s.onBody (Body.settle s.env) := if_pos running

theorem State.settle_stopping (stopping : s.fn = .stopping) : s.settle =
    if (s.onBody (Body.settle s.env)).body.stopDone then (s.onBody (Body.settle s.env)).stopEnds
    else s.onBody (Body.settle s.env) := by
  have not_running : s.fn ≠ .running := stopping ▸ nofun
  rw [State.settle, if_neg not_running, if_pos stopping]

theorem State.settle_stands (not_running : s.fn ≠ .running) (not_stopping : s.fn ≠ .stopping) : s.settle = s := by
  rw [State.settle, if_neg not_running, if_neg not_stopping]

end

/-- What settling never touches, whichever way it goes. -/
theorem State.settle_keeps (s : State) : s.settle.bp = s.bp ∧ s.settle.ce = s.ce ∧ s.settle.cbLo = s.cbLo ∧
    s.settle.cbHi = s.cbHi ∧ s.settle.now = s.now ∧ s.settle.lsig = s.lsig ∧ s.settle.fault = s.fault ∧
    s.settle.heldStop = s.heldStop ∧ s.settle.pending = s.pending := by
  rcases s.settle_cases with ⟨-, -, same⟩ | ⟨-, same⟩ | ⟨-, same⟩
  · simp [same]
  · simp [same]
  · simp [same, State.stopEnds]

/-- Settles O11: the parts of settling by their definitions, what it leaves of the streams by the invariant
`Body.OpenFrom`, and the end of a stop by `Body.stopDone_iff`. -/
theorem settlingLeavesAlone : Obligations.SettlingLeavesAlone := by
  refine ⟨fun s running => ⟨State.settle_running running, by simp [State.env, State.isUp, running]⟩,
    fun env b => ⟨rfl, rfl⟩, fun env n i b => ⟨Body.runStream_closed n, fun st opened =>
      ⟨Body.runStream_rests n opened, fun st' effect => Body.runStream_acts n opened⟩⟩,
    fun env i st => ⟨firstSome_eq_none_iff, fun x => firstSome_eq_some_iff, fun b => ⟨rfl, fun _ => rfl⟩⟩, fun s => ?_⟩
  obtain ⟨bp, ce, cbLo, cbHi, now, lsig, fault, heldStop, pending⟩ := s.settle_keeps
  refine ⟨bp, ce, cbLo, cbHi, now, lsig, fault, heldStop, pending, State.settle_stands,
    fun running => by rw [State.settle_running running, State.onBody_fn, running], fun stopping b is_settled => ?_,
    fun i st' opened => ?_⟩
  · have settles : s.onBody (Body.settle s.env) = { s with body := b } := by rw [State.onBody, is_settled]
    rw [State.settle_stopping stopping, settles]
    exact ⟨fun done => if_pos ((Body.stopDone_iff _).mpr done),
      fun not_done => if_neg (not_done ∘ (Body.stopDone_iff _).mp)⟩
  · obtain ⟨st, opened', same⟩ := s.openFrom_settle i st' opened
    refine ⟨st, opened', ?_⟩
    simpa only [Stream.fixed, Prod.mk.injEq] using same

end Sys2Proof.Machine
end

section
/-! SUPPORT. How a work record is fetched, returns, is checked and is taken, or is discarded (R3, R45 to R47, R65 to
R67, R155, R156). -/

namespace Sys2Proof.Machine

open Sys2Proof Host

/-! ### The checks of a work record -/

section

theorem sendFlags_iff (flagBits : Byte) : flagBits &&& 0xFC#8 = 0 ↔ flagBits.toNat < 4 := by
  revert flagBits
  decide

theorem receiveFlags_iff (flagBits : Byte) : flagBits &&& 0xFD#8 = 0 ↔ flagBits = 0 ∨ flagBits = 2 := by
  revert flagBits
  decide

theorem not_pastTop_iff {addr : Addr} {len : Nat} : pastTop addr len = false ↔ addr.toNat + len ≤ 2 ^ 64 := by
  rw [← Bool.not_eq_true, pastTop_iff, Nat.not_lt]

variable (r : WorkRecord)

theorem WorkRecord.validSend_iff : r.validSend = true ↔ r.kind = 1 ∧ (r.length ≤ 1048576 ∧ r.reservedZero = true) ∧
    r.flagBits.toNat < 4 ∧ (r.length ≠ 0 → r.addr.toNat + r.length ≤ 2 ^ 64) := by
  have inside : (!(decide (1 ≤ r.length) && pastTop r.addr r.length)) = true ↔
      (r.length ≠ 0 → r.addr.toNat + r.length ≤ 2 ^ 64) := by
    rw [← not_pastTop_iff, Bool.not_eq_true', Bool.and_eq_false_imp, decide_eq_true_iff, Nat.one_le_iff_ne_zero]
  rw [WorkRecord.validSend]
  simp only [Bool.and_eq_true, beq_iff_eq, decide_eq_true_iff, sendFlags_iff, inside]
  tauto

theorem WorkRecord.validReceive_iff : r.validReceive = true ↔
    r.kind = 2 ∧ (r.length ≤ 1048576 ∧ r.reservedZero = true) ∧ 1 ≤ r.length ∧ (r.flagBits = 0 ∨ r.flagBits = 2) ∧
      r.addr.toNat + r.length ≤ 2 ^ 64 := by
  rw [WorkRecord.validReceive]
  simp only [Bool.and_eq_true, beq_iff_eq, decide_eq_true_iff, receiveFlags_iff, Bool.not_eq_true', not_pastTop_iff]
  tauto

theorem WorkRecord.reservedZero_iff (bits : BitVec 256) : (WorkRecord.read bits).reservedZero = true ↔
    fieldAt bits 14 2 = 0 ∧ fieldAt bits 24 8 = 0 := by
  simp [WorkRecord.read]

/-- The record passes the checks of its stream's direction. -/
def WorkRecord.valid (dir : Direction) (r : WorkRecord) : Bool :=
  match dir with
  | .outbound => r.validSend
  | .inbound => r.validReceive

end

theorem WorkRecord.valid_outbound_iff (bits : BitVec 256) : (WorkRecord.read bits).valid .outbound = true ↔
    byteAt bits 12 = 1 ∧ (fieldAt bits 8 4 ≤ 2 ^ 20 ∧ fieldAt bits 14 2 = 0 ∧ fieldAt bits 24 8 = 0) ∧
      (byteAt bits 13).toNat < 4 ∧ (fieldAt bits 8 4 ≠ 0 → (addrAt bits 0).toNat + fieldAt bits 8 4 ≤ 2 ^ 64) := by
  rw [← WorkRecord.reservedZero_iff]
  exact WorkRecord.validSend_iff _

theorem WorkRecord.valid_inbound_iff (bits : BitVec 256) : (WorkRecord.read bits).valid .inbound = true ↔
    byteAt bits 12 = 2 ∧ (fieldAt bits 8 4 ≤ 2 ^ 20 ∧ fieldAt bits 14 2 = 0 ∧ fieldAt bits 24 8 = 0) ∧
      1 ≤ fieldAt bits 8 4 ∧ (byteAt bits 13 = 0 ∨ byteAt bits 13 = 2) ∧
      (addrAt bits 0).toNat + fieldAt bits 8 4 ≤ 2 ^ 64 := by
  rw [← WorkRecord.reservedZero_iff]
  exact WorkRecord.validReceive_iff _

/-! ### The record held for the taken position -/

section

variable {r : HostRing} {bits : BitVec 256}

theorem HostRing.next?_eq_none (stands : r.pendingCount = 0 ∨ ∀ p ∈ r.returned, p.1 ≠ r.taken) : r.next? = none := by
  unfold HostRing.next?
  rcases stands with empty | none_held
  · rw [if_neg (empty ▸ Nat.lt_irrefl 0)]
  · have unheld : r.returned.find? (fun p => p.1 == r.taken) = none :=
      List.find?_eq_none.mpr fun p mem => by simpa using none_held p mem
    simp [unheld]

theorem HostRing.next?_eq_some {before after : List (Nat × BitVec 256)} (posted : 0 < r.pendingCount)
    (held : r.returned = before ++ (r.taken, bits) :: after) (first : ∀ p ∈ before, p.1 ≠ r.taken) :
    r.next? = some (bits, { r with
      taken := (r.taken + 1) % r.size, returned := r.returned.filter fun p => p.1 != r.taken }) := by
  have found : r.returned.find? (fun p => p.1 == r.taken) = some (r.taken, bits) :=
    List.find?_eq_some_iff_append.mpr ⟨beq_self_eq_true _, before, after, held, by simpa using first⟩
  simp [HostRing.next?, posted, found]

theorem HostRing.of_next? {moved : HostRing} (next : r.next? = some (bits, moved)) :
    (r.taken, bits) ∈ r.returned ∧ moved = { r with
      taken := (r.taken + 1) % r.size, returned := r.returned.filter fun p => p.1 != r.taken } := by
  unfold HostRing.next? at next
  split at next
  · split at next
    · next found =>
      cases next
      have at_taken := List.find?_some found
      exact ⟨beq_iff_eq.mp at_taken ▸ List.mem_of_find?_eq_some found, rfl⟩
    · cases next
  · cases next

end

/-! ### The hand-on to the stream -/

section

variable {env : Env} {st : Stream} {bits : BitVec 256} {ring : HostRing}

/-- A stream takes records in ACTIVE, FLUSHING and CLOSING, while it holds no completion. -/
def Stream.takesRecords (st : Stream) : Prop :=
  (st.state = .active ∨ st.state = .flushing ∨ st.state = .closing) ∧ st.held = none

theorem Stream.handOn_none (stands : ¬st.takesRecords ∨ st.ring.next? = none) : st.handOn env = none := by
  unfold Stream.handOn
  rcases stands with closed | none_next
  · exact if_neg closed
  · simp only [none_next, ite_self]

/-- Of a record that is next, the stream takes the ring's move, and what else by the checks of its direction. -/
theorem Stream.handOn_eq (takes : st.takesRecords) (next : st.ring.next? = some (bits, ring)) : st.handOn env =
    if (WorkRecord.read bits).valid st.dir then some (match st.dir with
      | .outbound => { st with ring := ring }.joinSend env st.ring.taken (WorkRecord.read bits)
      | .inbound => { st with ring := ring }.joinReceive st.ring.taken (WorkRecord.read bits), .none)
    else if st.mayHalt then some (Stream.beginHalt .badRecord { st with
      ring := ring, bad := some { position := st.ring.taken, tag := addrAt bits 16, formed := false } },
      .halted .badRecord)
    else some ({ st with ring := ring }, .none) := by
  refine (if_pos takes).trans ?_
  simp only [next]
  rfl


theorem Stream.handOn_send (takes : st.takesRecords) (next : st.ring.next? = some (bits, ring))
    (valid : (WorkRecord.read bits).valid st.dir = true) (dir : st.dir = .outbound) :
    st.handOn env = some ({ st with ring := ring }.joinSend env st.ring.taken (WorkRecord.read bits), .none) := by
  rw [Stream.handOn_eq takes next, if_pos valid, dir]

theorem Stream.handOn_receive (takes : st.takesRecords) (next : st.ring.next? = some (bits, ring))
    (valid : (WorkRecord.read bits).valid st.dir = true) (dir : st.dir = .inbound) :
    st.handOn env = some ({ st with ring := ring }.joinReceive st.ring.taken (WorkRecord.read bits), .none) := by
  rw [Stream.handOn_eq takes next, if_pos valid, dir]

/-- A record that fails its checks halts a stream that can halt (R46, R66). -/
theorem Stream.handOn_bad (takes : st.takesRecords) (next : st.ring.next? = some (bits, ring))
    (invalid : ¬(WorkRecord.read bits).valid st.dir = true) (uncaused : st.cause = none) :
    st.handOn env = some ({ st with
      ring := ring, bad := some { position := st.ring.taken, tag := addrAt bits 16, formed := false }
      state := .halting, cause := some .badRecord, stage := .waiting }, .halted .badRecord) := by
  rw [Stream.handOn_eq takes next, if_neg invalid, if_pos (Stream.mayHalt_iff.mpr ⟨takes.1, uncaused⟩)]
  rfl

/-- A record that fails its checks in a stream with a halt cause is taken and dropped. -/
theorem Stream.handOn_dropped (takes : st.takesRecords) (next : st.ring.next? = some (bits, ring))
    (invalid : ¬(WorkRecord.read bits).valid st.dir = true) (caused : st.cause ≠ none) :
    st.handOn env = some ({ st with ring := ring }, .none) := by
  rw [Stream.handOn_eq takes next, if_neg invalid, if_neg (Stream.not_mayHalt (.inr (.inr (.inr caused))))]

theorem Stream.joinSend_eq (position : Nat) (r : WorkRecord) : st.joinSend env position r = { st with
    sends := st.sends ++ [
      { position := position, tag := r.tag, addr := r.addr, length := r.length, eom := r.eom, quiet := r.quiet
        requested := 0, read := 0, confirmed := 0, markCarried := false, markConfirmed := false
        finishCycle := if r.length = 0 ∧ r.eom = false ∧ env.up = true then some env.cycle else none }] } := by
  simp only [Stream.joinSend, Bool.not_eq_true']

end

/-! ### The fetches of a stream -/

section

variable {env : Env} {i : StreamId} {st : Stream}

/-- A fetch is due: RUNNING, ACTIVE, no completion held, a posted record not yet fetched, and fewer than eight records
fetched, held and listed (R155). -/
def Stream.fetchDue (env : Env) (st : Stream) : Prop :=
  env.running = true ∧ st.state = .active ∧ st.held = none ∧
    ringSub st.ring.size st.ring.fetchPos st.ring.taken < ringSub st.ring.size st.ring.posted st.ring.taken ∧
    st.ring.fetches.length + st.ring.returned.length + st.sends.length + st.receives.length < 8

theorem HostRing.mayFetch_iff (r : HostRing) (others : Nat) : r.mayFetch others = true ↔
    ringSub r.size r.fetchPos r.taken < ringSub r.size r.posted r.taken ∧
      r.fetches.length + r.returned.length + others < 8 := by
  rw [HostRing.mayFetch, Bool.and_eq_true, decide_eq_true_iff, decide_eq_true_iff, HostRing.pendingCount]

theorem Stream.fetchDue_iff : st.fetchDue env ↔ env.running = true ∧ st.state = .active ∧ st.held = none ∧
    st.ring.mayFetch (st.sends.length + st.receives.length) = true := by
  rw [HostRing.mayFetch_iff, Stream.fetchDue, ← Nat.add_assoc]

theorem Stream.fetchOne_due (due : st.fetchDue env) : st.fetchOne env = some { st with ring := st.ring.fetch } :=
  if_pos (Stream.fetchDue_iff.mp due)

theorem Stream.fetchOne_not_due (not_due : ¬st.fetchDue env) : st.fetchOne env = none :=
  if_neg (not_due ∘ Stream.fetchDue_iff.mpr)

/-- A stream comes to rest only when no fetch is due. -/
theorem Stream.fetchDue_of_internal (rests : st.internal env i = none) : ¬st.fetchDue env := fun due => by
  have fetches : plain (st.fetchOne env) = none := firstSome_eq_none_iff.mp rests _ (by simp)
  rw [Stream.fetchOne_due due] at fetches
  cases fetches

/-- A record held by a stream that no longer takes records is discarded, before the stream goes on (R3, R156). -/
theorem Stream.internal_drops (stopped : st.state = .halting ∨ st.state = .halted ∨ st.state = .aborting)
    (held : st.ring.returned ≠ []) (stays : st.leaveOne i = none) (placed : st.placeOne = none) :
    st.internal env i = some ({ st with ring := st.ring.discard }, .none) := by
  have drops : st.dropReturned = some { st with ring := st.ring.discard } := if_pos ⟨stopped, .inl held⟩
  rw [Stream.internal, stays, placed, drops]
  rfl

end

/-! ### The end of a fetch -/

section

variable {b : Body} {i : StreamId} {st : Stream} {slot : Nat} {f : Fetch}

theorem exec_workRecordFetchReturn {s : State} (running : s.fn ≠ .faulted) (i : StreamId) (slot : Nat)
    (result : Option (BitVec 256)) : exec (.workRecordFetchReturn i slot result) s =
      .next (s.onBody (Body.recordFetchEnds i slot result)).settle :=
  congrArg Outcome.next (State.event_eq running _)

theorem Body.recordFetchEnds_record (opened : b.stream i = some st) (at_slot : st.ring.fetches[slot]? = some f)
    (bits : BitVec 256) : b.recordFetchEnds i slot (some bits) = b.put i st { st with ring := { st.ring with
      fetches := st.ring.fetches.eraseIdx slot
      returned := if f.dropped then st.ring.returned else st.ring.returned ++ [(f.position, bits)] } } := by
  have in_flight : slot < st.ring.fetches.length := (List.getElem?_eq_some_iff.mp at_slot).1
  simp only [Body.recordFetchEnds, opened, if_pos in_flight, HostRing.fetchReturned, at_slot]

theorem Body.recordFetchEnds_error (opened : b.stream i = some st) (at_slot : st.ring.fetches[slot]? = some f) :
    b.recordFetchEnds i slot none = (b.put i st { st with
      ring := { st.ring with fetches := st.ring.fetches.eraseIdx slot } }).halt i .fetchError := by
  have in_flight : slot < st.ring.fetches.length := (List.getElem?_eq_some_iff.mp at_slot).1
  simp only [Body.recordFetchEnds, opened, if_pos in_flight]

end

/-! ### The statement -/

/-- Settles O26: the end of a fetch, then the record that is next and its checks, the records that are discarded, and
the fetches that are due. -/
theorem workRecordsAreTaken : Obligations.WorkRecordsAreTaken := by
  refine ⟨fun s i st slot f bits fn opened at_slot => ⟨?_, ?_⟩, fun env st => ⟨Stream.handOn_none, ?_⟩,
    fun r => ⟨HostRing.next?_eq_none, fun before after bits => HostRing.next?_eq_some⟩,
    fun env i st stopped held => Stream.internal_drops stopped held,
    fun env i st => ⟨Stream.fetchOne_due, Stream.fetchOne_not_due, Stream.fetchDue_of_internal⟩⟩
  · rw [exec_workRecordFetchReturn (FnState.ne_faulted fn), State.onBody, Body.recordFetchEnds_record opened at_slot]
    rfl
  · rw [exec_workRecordFetchReturn (FnState.ne_faulted fn), State.onBody, Body.recordFetchEnds_error opened at_slot]
    rfl
  · intro bits ring next takes length address mark quiet tag sound passes
    have passes_iff : passes ↔ (WorkRecord.read bits).valid st.dir = true := by
      cases dir : st.dir
      · simp only [passes, dir]
        exact (WorkRecord.valid_outbound_iff bits).symm
      · simp only [passes, dir]
        exact (WorkRecord.valid_inbound_iff bits).symm
    obtain ⟨mem, moved⟩ := HostRing.of_next? next
    rw [passes_iff]
    refine ⟨mem, congrArg HostRing.taken moved, fun p => by simp [moved], fun valid dir => ?_,
      fun valid dir => Stream.handOn_receive takes next valid dir, Stream.handOn_bad takes next,
      Stream.handOn_dropped takes next⟩
    rw [Stream.handOn_send takes next valid dir, Stream.joinSend_eq]
    rfl

end Sys2Proof.Machine
end

section
/-! SUPPORT. The records that the part writes, byte for byte: completions and events (11.4; R60, R75, R169, R174,
R183). -/

namespace Sys2Proof.Machine

open Sys2Proof

/-! ### Bytes, least significant first -/

@[simp] theorem le_length (n v : Nat) : (le n v).length = n := by
  induction n generalizing v with
  | zero => rfl
  | succ n ih => rw [le, List.length_cons, ih]

/-- A value that `n` bytes hold has zeros above them. -/
theorem le_append_zeros {n v : Nat} (k : Nat) (small : v < 256 ^ n) : le (n + k) v = le n v ++ le k 0 := by
  induction n generalizing v with
  | zero =>
    have zero : v = 0 := by omega
    simp [zero, le]
  | succ n ih =>
    have rest : v / 256 < 256 ^ n := Nat.div_lt_of_lt_mul (by rwa [pow_succ'] at small)
    rw [Nat.succ_add, le, le, ih rest]
    rfl

/-- A flag with its weight, as a number. -/
theorem flag_eq_mul (set : Bool) (weight : Nat) : (if set then weight else 0) = set.toNat * weight := by
  cases set <;> simp

/-! ### A completion -/

theorem Completion.length_bytes (x : Completion) (phase : Bool) : (x.bytes phase).length = 32 := by
  simp [Completion.bytes, bytesOf]

theorem CompletionKind.ofNat_code (kind : CompletionKind) : BitVec.ofNat 8 kind.code = match kind with
    | .admin => 1
    | .send => 2
    | .receive => 3 := by
  cases kind <;> rfl

/-- The flags of byte 3: the mark in bit 0, the gap in bit 1, CYCLE_VALID in bit 2 and the phase in bit 7. -/
theorem completion_flags (eom gap stamped phase : Bool) :
    flags [eom, gap, stamped, false, false, false, false, phase] =
      (if eom then 1 else 0) + (if gap then 2 else 0) + (if stamped then 4 else 0) + if phase then 128 else 0 := by
  simp only [flags, flag_eq_mul, Bool.toNat_false]
  ring

theorem stamp_bytes (stamp : Option CycleNum) : bytesOf 2 (stamp.getD 0) = le 2 ((stamp.map BitVec.toNat).getD 0) := by
  cases stamp <;> rfl

theorem Completion.bytes_eq (x : Completion) (phase : Bool) : x.bytes phase =
    [(match x.kind with
      | .admin => 1
      | .send => 2
      | .receive => 3), x.stream, BitVec.ofNat 8 x.status.code, BitVec.ofNat 8 ((if x.eom then 1 else 0) +
      (if x.gap then 2 else 0) + (if x.stamp.isSome then 4 else 0) + if phase then 128 else 0)] ++ le 2 x.position ++
      le 2 ((x.stamp.map BitVec.toNat).getD 0) ++ le 8 x.tag.toNat ++ le 4 x.count ++ [x.code] ++ le 11 0 := by
  rw [Completion.bytes, completion_flags, stamp_bytes, CompletionKind.ofNat_code]
  rfl

/-! ### An event -/

theorem Detail.length_bytes (d : Detail) : d.bytes.length = 8 := by
  cases d <;> simp [Detail.bytes, bytesOf]

theorem Event.length_bytes (e : Event) (phase : Bool) : (e.bytes phase).length = 16 := by
  simp [Event.bytes, Detail.length_bytes]

/-- A code of one byte in a field of more. -/
theorem le_code {code : Nat} (k : Nat) (small : code < 256) : le (1 + k) code = BitVec.ofNat 8 code :: le k 0 :=
  le_append_zeros k small

/-- A cycle number or an index in a field of more than two bytes. -/
theorem le_half (k : Nat) (v : BitVec 16) : le (2 + k) v.toNat = le 2 v.toNat ++ le k 0 := le_append_zeros k v.isLt

theorem HaltCause.code_lt (cause : HaltCause) : cause.code < 256 := by cases cause <;> decide

theorem DownCause.code_lt (cause : Option DownCause) : (cause.map DownCause.code).getD 0 < 256 := by
  cases cause with
  | none => decide
  | some cause => cases cause <;> decide

/-- The kind of an event and its detail bytes as 11.4 places them. -/
def Detail.placed : Detail → Byte × List Byte
  | .watch on => (1, [if on then 1 else 0] ++ le 7 0)
  | .streamHalted cause => (2, [BitVec.ofNat 8 cause.code] ++ le 7 0)
  | .scheduleMiss overrun => (3, [if overrun then 2 else 1] ++ le 7 0)
  | .linkState state cause =>
    (4, [BitVec.ofNat 8 state.code, BitVec.ofNat 8 ((cause.map DownCause.code).getD 0)] ++ le 6 0)
  | .cycleSlip old new => (5, le 2 old.toNat ++ le 2 new.toNat ++ le 4 0)
  | .badNotify ring index => (6, [BitVec.ofNat 8 ring, 0] ++ le 2 index.toNat ++ le 4 0)

theorem Detail.placed_eq (d : Detail) (named : ∀ ring index, d = .badNotify ring index → ring < 256) :
    d.placed = (BitVec.ofNat 8 d.kind, d.bytes) := by
  refine Prod.ext (by cases d <;> rfl) ?_
  cases d with
  | watch on => cases on <;> rfl
  | streamHalted cause => exact (le_code 7 cause.code_lt).symm
  | scheduleMiss overrun => cases overrun <;> rfl
  | linkState state cause => exact congrArg (BitVec.ofNat 8 state.code :: ·) (le_code 6 (DownCause.code_lt cause)).symm
  | cycleSlip old new => exact (List.append_assoc ..).trans (congrArg (le 2 old.toNat ++ ·) (le_half 4 new).symm)
  | badNotify ring index =>
    exact (List.append_assoc ..).trans
      (congrArg₂ (· ++ ·) (le_code 1 (named ring index rfl)).symm (le_half 4 index).symm)

theorem Event.bytes_eq (e : Event) (phase : Bool)
    (named : ∀ ring index, e.detail = .badNotify ring index → ring < 256) : e.bytes phase =
      [e.detail.placed.1, (match e.source with
        | some i => BitVec.ofNat 8 i.val
        | none => 0xFF), BitVec.ofNat 8 e.count, if phase then 0x80 else 0] ++ e.detail.placed.2 ++ le 4 0 := by
  rw [Detail.placed_eq _ named, Event.bytes]
  cases phase <;> rfl

end Sys2Proof.Machine
end

section
/-! SUPPORT. What the Ring Interface writes into a part-written ring: the entries that fit, from position put on, each
with the phase of its pass, and the interrupt message of an ARMED ring after the first (R159, R163). -/

namespace Sys2Proof.Machine

open Sys2Proof

/-! ### Positions of a ring -/

section

variable {n a b : Nat}

theorem ringSub_eq (ha : a < n) (hb : b < n) : ringSub n a b = if b ≤ a then a - b else a + n - b := by
  unfold ringSub
  split
  · rw [Nat.sub_add_comm ‹b ≤ a›, Nat.add_mod_right, Nat.mod_eq_of_lt (Nat.lt_of_le_of_lt (Nat.sub_le a b) ha)]
  · exact Nat.mod_eq_of_lt (by omega)

theorem succ_mod_eq (ha : a < n) : (a + 1) % n = if a + 1 = n then 0 else a + 1 := by
  split
  · next wraps => rw [wraps, Nat.mod_self]
  · exact Nat.mod_eq_of_lt (by omega)

/-- A position that moves on without catching up comes one further from where it is counted. -/
theorem ringSub_succ (ha : a < n) (hb : b < n) (room : ringSub n a b + 1 < n) :
    ringSub n ((a + 1) % n) b = ringSub n a b + 1 := by
  have moved : (a + 1) % n < n := Nat.mod_lt _ (Nat.zero_lt_of_lt ha)
  rw [ringSub_eq ha hb] at room ⊢
  rw [ringSub_eq moved hb, succ_mod_eq ha]
  split_ifs at room ⊢ <;> omega

end

/-! ### A ring that has been written -/

section

variable (r : PartRing)

/-- The phase of the entry `k` positions past put. -/
def PartRing.phaseAt (k : Nat) : Bool := r.phase ^^ decide (r.size ≤ r.put + k)

/-- The ring with `m` entries more (R159, R163). -/
def PartRing.served (m : Nat) : PartRing :=
  { r with put := (r.put + m) % r.size, phase := r.phaseAt m, armed := r.armed && m == 0 }

/-- The writes of `m` entries of `length` bytes, with the interrupt message after the first (R159, R163). -/
def PartRing.writesOf (m length : Nat) (kind : Nat → RingWriteKind) (entry : Nat → Bool → List Byte) : List RingWrite :=
  (List.range m).flatMap fun k =>
    { kind := kind k, addr := r.base + BitVec.ofNat 64 ((r.put + k) % r.size * length)
      data := entry k (r.phaseAt k) } ::
      if k = 0 ∧ r.armed = true then [r.message] else []

variable {r}

theorem PartRing.phaseAt_zero (lawful : r.lawful) : r.phaseAt 0 = r.phase := by
  simp [PartRing.phaseAt, Nat.not_le_of_lt lawful.2.1]

theorem PartRing.served_zero (lawful : r.lawful) : r.served 0 = r := by
  simp [PartRing.served, PartRing.phaseAt_zero lawful, Nat.mod_eq_of_lt lawful.2.1]

theorem PartRing.served_one_lawful (lawful : r.lawful) : (r.served 1).lawful :=
  ⟨lawful.1, Nat.mod_lt _ (Nat.zero_lt_of_lt lawful.2.1), lawful.2.2⟩

theorem PartRing.served_one_space (lawful : r.lawful) (space : 0 < r.space) : (r.served 1).space = r.space - 1 := by
  have moves := ringSub_succ lawful.2.1 lawful.2.2 (by unfold PartRing.space at space; omega)
  simp only [PartRing.space, PartRing.served, moves]
  omega

/-- Within one turn of the ring, the phases past the first entry are those past put. -/
theorem PartRing.served_one_phaseAt {k : Nat} (lawful : r.lawful) (turn : k + 1 < r.size) :
    (r.served 1).phaseAt k = r.phaseAt (k + 1) := by
  obtain ⟨-, below, -⟩ := lawful
  simp only [PartRing.phaseAt, PartRing.served, succ_mod_eq below, Bool.xor_assoc]
  congr 1
  by_cases wraps : r.put + 1 = r.size
  · have later : ¬r.size ≤ 0 + k := by omega
    have passed : r.size ≤ r.put + (k + 1) := by omega
    simp [wraps, passed]
    omega
  · have first : ¬r.size ≤ r.put + 1 := by omega
    simp [wraps, first, Nat.add_assoc, Nat.add_comm 1 k]

theorem PartRing.served_one_served {m : Nat} (lawful : r.lawful) (turn : m + 1 < r.size) :
    (r.served 1).served m = r.served (m + 1) := by
  rw [PartRing.served, PartRing.served_one_phaseAt lawful turn]
  simp [PartRing.served, Nat.add_assoc, Nat.add_comm 1 m]

/-- A write moves the ring on by one entry, and an ARMED ring sends its message with it. -/
theorem PartRing.write_eq (lawful : r.lawful) (space : 0 < r.space) (kind : RingWriteKind) (entry : Bool → List Byte) :
    r.write kind entry = (r.served 1,
      { kind := kind, addr := r.base + BitVec.ofNat 64 (r.put * (entry r.phase).length), data := entry r.phase } ::
        if r.armed = true then [r.message] else []) := by
  have unconsumed : (r.put + 1) % r.size ≠ r.freed := fun caught => by
    have moves := ringSub_succ lawful.2.1 lawful.2.2 (by unfold PartRing.space at space; omega)
    simp [caught, ringSub] at moves
  have passes : r.size ≤ r.put + 1 ↔ r.put + 1 = r.size := by have := lawful.2.1; omega
  have moved : r.advance = { r.served 1 with armed := r.armed } := by
    by_cases wraps : r.put + 1 = r.size <;> simp [PartRing.advance, PartRing.served, PartRing.phaseAt, passes, wraps]
  have message : r.advance.interrupt = (r.served 1, if r.armed = true then [r.message] else []) := by
    rw [PartRing.interrupt, moved]
    by_cases armed : r.armed = true
    · rw [if_pos ⟨armed, unconsumed⟩, if_pos armed]
      simp [PartRing.served, PartRing.message, bytesOf]
    · rw [if_neg (fun sends => armed sends.1), if_neg armed]
      simp [PartRing.served, armed]
  simp only [PartRing.write, message]

theorem PartRing.writesOf_zero (length : Nat) (kind : Nat → RingWriteKind) (entry : Nat → Bool → List Byte) :
    r.writesOf 0 length kind entry = [] := rfl

/-- The writes of one entry and of `m` more are those of `m + 1`. -/
theorem PartRing.writesOf_succ {m length : Nat} (lawful : r.lawful) (room : m + 1 ≤ r.space)
    (kind : Nat → RingWriteKind) (entry : Nat → Bool → List Byte) (size : (entry 0 r.phase).length = length) :
    r.writesOf (m + 1) length kind entry = (r.write (kind 0) (entry 0)).2 ++
      (r.served 1).writesOf m length (fun k => kind (k + 1)) fun k => entry (k + 1) := by
  have space : 0 < r.space := Nat.lt_of_lt_of_le (Nat.succ_pos m) room
  rw [PartRing.writesOf, List.range_succ_eq_map, List.flatMap_cons, List.flatMap_map, PartRing.write_eq lawful space]
  congr 1
  · simp [Nat.mod_eq_of_lt lawful.2.1, PartRing.phaseAt_zero lawful, size]
  · refine List.flatMap_congr fun k mem => ?_
    have turn : k + 1 < r.size := by
      have := List.mem_range.mp mem
      unfold PartRing.space at room
      omega
    rw [PartRing.served_one_phaseAt lawful turn]
    simp [PartRing.served, Nat.add_assoc, Nat.add_comm 1 k]

end

end Sys2Proof.Machine
end

section
/-! SUPPORT. The events and the held completions that the Ring Interface writes (R159 to R163). -/

namespace Sys2Proof.Machine

open Sys2Proof

/-! ### Pending events (R162) -/

section

variable {b : Body} {r : PartRing}

/-- The bytes of the `k`-th of these events. -/
def eventEntry (es : List Event) (k : Nat) (phase : Bool) : List Byte := (es[k]?.map fun e => e.bytes phase).getD []

/-- The body with `m` of its pending events written. -/
def Body.eventsIssued (r : PartRing) (m : Nat) (b : Body) : Body := { b with
  event := some (r.served m), events := b.events.drop m
  ringWrites := b.ringWrites ++ r.writesOf m 16 (fun _ => .event) (eventEntry b.events) }

theorem Body.eventsIssued_zero (configured : b.event = some r) (lawful : r.lawful) : b.eventsIssued r 0 = b := by
  rw [Body.eventsIssued, PartRing.served_zero lawful, PartRing.writesOf_zero, List.drop_zero, List.append_nil,
    ← configured]

theorem Body.issueEvents_stops (configured : b.event = some r) (stops : b.events = [] ∨ ¬0 < r.space) (n : Nat) :
    b.issueEvents n = b := by
  cases n with
  | zero => rfl
  | succ n =>
    rcases stops with none_pending | full
    · simp only [Body.issueEvents, configured, none_pending]
    · rw [Body.issueEvents, configured]
      split
      · next ring _ _ some_ring _ =>
        cases some_ring
        rw [if_neg full]
      · rfl

theorem Body.issueEvents_writes {e : Event} {es : List Event} (configured : b.event = some r) (lawful : r.lawful)
    (pending : b.events = e :: es) (space : 0 < r.space) (n : Nat) : b.issueEvents (n + 1) =
      { b with event := some (r.served 1), events := es
               ringWrites := b.ringWrites ++ (r.write .event e.bytes).2 }.issueEvents n := by
  simp only [Body.issueEvents, configured, pending, if_pos space]
  rw [PartRing.write_eq lawful space]

/-- The pending events are written from the head of the list, one for each free position. -/
theorem Body.issueEvents_eq (configured : b.event = some r) (lawful : r.lawful) {n : Nat}
    (enough : b.events.length ≤ n) : b.issueEvents n = b.eventsIssued r (min r.space b.events.length) := by
  induction n generalizing b r with
  | zero =>
    have none_pending : b.events = [] := List.length_eq_zero_iff.mp (Nat.le_zero.mp enough)
    rw [none_pending, List.length_nil, Nat.min_zero, Body.eventsIssued_zero configured lawful]
    rfl
  | succ n ih =>
    rcases Nat.eq_zero_or_pos r.space with full | space
    · rw [Body.issueEvents_stops configured (.inr (full ▸ Nat.lt_irrefl 0)), full, Nat.zero_min,
        Body.eventsIssued_zero configured lawful]
    cases pending : b.events with
    | nil =>
      rw [Body.issueEvents_stops configured (.inl pending), List.length_nil, Nat.min_zero,
        Body.eventsIssued_zero configured lawful]
    | cons e es =>
      have fewer : es.length ≤ n := by simpa [pending] using enough
      have count : min r.space (es.length + 1) = min (r.served 1).space es.length + 1 := by
        rw [PartRing.served_one_space lawful space]
        omega
      have room : min (r.served 1).space es.length + 1 ≤ r.space := count ▸ Nat.min_le_left ..
      have turn : min (r.served 1).space es.length + 1 < r.size := by unfold PartRing.space at *; omega
      rw [Body.issueEvents_writes configured lawful pending space, ih rfl (PartRing.served_one_lawful lawful) fewer,
        List.length_cons, count, Body.eventsIssued, Body.eventsIssued, PartRing.served_one_served lawful turn, pending,
        PartRing.writesOf_succ lawful room _ _ (e.length_bytes r.phase), List.append_assoc]
      rfl


end

/-! ### Held completions -/

section

variable {b : Body} {src : Source} {stage : HeldStage}

/-- The stage of one source's completion changes, and of no other's. -/
theorem Body.heldOf_setHeldStage (other : Source) : (b.setHeldStage src stage).heldOf other =
    (b.heldOf other).map fun h => if other = src then { h with stage := stage } else h := by
  cases src with
  | stream i =>
    cases other with
    | stream j =>
      by_cases same : j = i
      · subst same
        rw [Body.heldOf, Body.setHeldStage, Body.modify_stream_self, Body.heldOf]
        cases b.stream j <;> simp
      · rw [Body.heldOf, Body.setHeldStage, Body.modify_stream_ne same, Body.heldOf]
        simp [same]
    | admin id => simp [Body.heldOf, Body.setHeldStage]
  | admin id =>
    cases other with
    | stream j =>
      simp only [reduceCtorEq, if_false, Option.map_id']
      rfl
    | admin n =>
      have kept : (fun e : Entry => e.id == n) ∘
          (fun e => if e.id = id then { e with held := e.held.map fun x => { x with stage := stage } } else e) =
            fun e => e.id == n := funext fun e => by dsimp only [Function.comp_apply]; split <;> rfl
      simp only [Body.heldOf, Body.setHeldStage, List.find?_map, kept]
      cases found : b.table.find? fun e => e.id == n with
      | none => rfl
      | some e =>
        obtain rfl : e.id = n := by simpa using List.find?_some found
        by_cases same : e.id = id <;> simp [same]

@[simp] theorem Body.setHeldStage_completion : (b.setHeldStage src stage).completion = b.completion := by
  cases src <;> simp [Body.setHeldStage]

@[simp] theorem Body.setHeldStage_ringWrites : (b.setHeldStage src stage).ringWrites = b.ringWrites := by
  cases src <;> simp [Body.setHeldStage]

end

/-! ### Waiting lists (R161) -/

section

variable {b : Body} {c : Fin 4} {cr : CompletionRing} {content : Source → Completion}

/-- The bytes of the completion of the `k`-th of these sources. -/
def completionEntry (content : Source → Completion) (waiting : List Source) (k : Nat) (phase : Bool) : List Byte :=
  (waiting[k]?.map fun src => (content src).bytes phase).getD []

/-- The first `m` sources of the waiting list of ring `c` have their completions written, and nothing else of the rings
or of what is held has changed. -/
structure Body.Issued (content : Source → Completion) (c : Fin 4) (cr : CompletionRing) (m : Nat) (b t : Body) :
    Prop where
  completion : t.completion = b.completion.set c (some { ring := cr.ring.served m, waiting := cr.waiting.drop m })
  ringWrites : t.ringWrites = b.ringWrites ++
    cr.ring.writesOf m 32 (fun k => .completion (cr.waiting.getD k (.admin 0))) (completionEntry content cr.waiting)
  held : ∀ src, t.heldOf src =
    (b.heldOf src).map fun h => { h with stage := if src ∈ cr.waiting.take m then .writing else h.stage }

theorem Body.Issued.zero (configured : b.completion[c] = some cr) (lawful : cr.ring.lawful) :
    Body.Issued content c cr 0 b b where
  completion := by
    rw [PartRing.served_zero lawful, List.drop_zero, ← configured]
    simp
  ringWrites := by rw [PartRing.writesOf_zero, List.append_nil]
  held src := by simp

theorem Body.issueCompletions_stops (configured : b.completion[c] = some cr)
    (stops : cr.waiting = [] ∨ ¬0 < cr.ring.space) (n : Nat) : b.issueCompletions n c = b := by
  cases n with
  | zero => rfl
  | succ n =>
    rw [Body.issueCompletions, configured]
    rcases stops with none_waits | full
    · simp only [none_waits]
    · dsimp only
      split
      · rw [if_neg full]
      · rfl

/-- The body with the completion of `src`, at the head of the waiting list, written. -/
def Body.completionIssued (c : Fin 4) (cr : CompletionRing) (src : Source) (rest : List Source) (x : Completion)
    (b : Body) : Body :=
  { b with
    completion := b.completion.set c (some { ring := cr.ring.served 1, waiting := rest })
    ringWrites := b.ringWrites ++ (cr.ring.write (.completion src) x.bytes).2 }.setHeldStage src .writing

theorem Body.issueCompletions_writes {src : Source} {rest : List Source} {h : Held}
    (configured : b.completion[c] = some cr) (lawful : cr.ring.lawful) (waiting : cr.waiting = src :: rest)
    (space : 0 < cr.ring.space) (held : b.heldOf src = some h) (n : Nat) :
    b.issueCompletions (n + 1) c = (b.completionIssued c cr src rest h.completion).issueCompletions n c := by
  rw [Body.issueCompletions, configured]
  simp only [waiting, if_pos space, held]
  rw [PartRing.write_eq lawful space, Body.completionIssued, PartRing.write_eq lawful space]

theorem Body.completionIssued_heldOf (src : Source) (rest : List Source) (x : Completion) (other : Source) :
    (b.completionIssued c cr src rest x).heldOf other =
      (b.heldOf other).map fun h => if other = src then { h with stage := .writing } else h :=
  Body.heldOf_setHeldStage other

/-- One completion written, and then `m` of those behind it. -/
theorem Body.Issued.succ {src : Source} {rest : List Source} {m : Nat} {t : Body} (lawful : cr.ring.lawful)
    (waiting : cr.waiting = src :: rest) (room : m + 1 ≤ cr.ring.space)
    (rest_issued : Body.Issued content c { ring := cr.ring.served 1, waiting := rest } m
      (b.completionIssued c cr src rest (content src)) t) : Body.Issued content c cr (m + 1) b t where
  completion := by
    have turn : m + 1 < cr.ring.size := by unfold PartRing.space at room; omega
    rw [rest_issued.completion, Body.completionIssued, PartRing.served_one_served lawful turn, waiting]
    simp
  ringWrites := by
    rw [rest_issued.ringWrites, Body.completionIssued, Body.setHeldStage_ringWrites, waiting,
      PartRing.writesOf_succ lawful room _ _ ((content src).length_bytes cr.ring.phase), List.append_assoc]
    rfl
  held other := by
    rw [rest_issued.held, Body.completionIssued_heldOf, Option.map_map, waiting, List.take_succ_cons]
    refine congrArg (fun f => (b.heldOf other).map f) (funext fun h => ?_)
    by_cases same : other = src <;> simp [same]

/-- The held completions of a waiting list are written from its head on, one for each free position. -/
theorem Body.issueCompletions_issued (configured : b.completion[c] = some cr) (lawful : cr.ring.lawful) {n : Nat}
    (held : ∀ src ∈ cr.waiting, (b.heldOf src).map Held.completion = some (content src))
    (enough : cr.waiting.length ≤ n) :
    Body.Issued content c cr (min cr.ring.space cr.waiting.length) b (b.issueCompletions n c) := by
  induction n generalizing b cr with
  | zero =>
    have none_waits : cr.waiting = [] := List.length_eq_zero_iff.mp (Nat.le_zero.mp enough)
    rw [none_waits, List.length_nil, Nat.min_zero]
    exact .zero configured lawful
  | succ n ih =>
    rcases Nat.eq_zero_or_pos cr.ring.space with full | space
    · rw [Body.issueCompletions_stops configured (.inr (full ▸ Nat.lt_irrefl 0)), full, Nat.zero_min]
      exact .zero configured lawful
    cases waiting : cr.waiting with
    | nil =>
      rw [Body.issueCompletions_stops configured (.inl waiting), List.length_nil, Nat.min_zero]
      exact .zero configured lawful
    | cons src rest =>
      rw [waiting] at held enough
      obtain ⟨h, holds, is_content⟩ := Option.map_eq_some_iff.mp (held src (List.mem_cons_self ..))
      have count : min cr.ring.space (rest.length + 1) = min (cr.ring.served 1).space rest.length + 1 := by
        rw [PartRing.served_one_space lawful space]
        omega
      have still_held : ∀ other ∈ rest, ((b.completionIssued c cr src rest h.completion).heldOf other).map
          Held.completion = some (content other) := by
        intro other mem
        rw [Body.completionIssued_heldOf, Option.map_map, ← held other (List.mem_cons_of_mem _ mem)]
        refine congrArg (fun f => (b.heldOf other).map f) (funext fun x => ?_)
        dsimp only [Function.comp_apply]
        split <;> rfl
      rw [Body.issueCompletions_writes configured lawful waiting space holds, List.length_cons, count]
      refine .succ lawful waiting (count ▸ Nat.min_le_left ..) ?_
      rw [← is_content]
      exact ih (by simp [Body.completionIssued]) (PartRing.served_one_lawful lawful) still_held
        (Nat.le_of_succ_le_succ enough)

end

end Sys2Proof.Machine
end

section
/-! SUPPORT. The admin records that the Ring Interface fetches, and the waiting lists that completions join (R157,
R160). -/

namespace Sys2Proof.Machine

open Sys2Proof

/-! ### Fetches of the admin ring (R157) -/

section

variable {r : HostRing}

/-- The ring with `m` fetches more, position after position. -/
def HostRing.fetched (m : Nat) (r : HostRing) : HostRing := { r with
  fetchPos := (r.fetchPos + m) % r.size
  fetches := r.fetches ++ (List.range m).map fun k => { position := (r.fetchPos + k) % r.size, dropped := false } }

theorem HostRing.fetched_zero (lawful : r.lawful) : r.fetched 0 = r := by
  simp [HostRing.fetched, Nat.mod_eq_of_lt lawful.2.2.2]

theorem HostRing.fetch_fetched (lawful : r.lawful) (m : Nat) : r.fetch.fetched m = r.fetched (m + 1) := by
  simp [HostRing.fetched, HostRing.fetch, List.range_succ_eq_map, Function.comp_def, Nat.mod_eq_of_lt lawful.2.2.2,
    Nat.add_assoc, Nat.add_comm 1]

theorem HostRing.fetch_lawful (lawful : r.lawful) : r.fetch.lawful :=
  ⟨lawful.1, lawful.2.1, lawful.2.2.1, Nat.mod_lt _ (Nat.zero_lt_of_lt lawful.2.1)⟩

/-- How many fetches may go out beside `others` records: to what is posted, and to eight records in all. -/
def HostRing.fetchable (others : Nat) (r : HostRing) : Nat :=
  min (8 - (r.fetches.length + r.returned.length + others))
    (ringSub r.size r.posted r.taken - ringSub r.size r.fetchPos r.taken)

theorem HostRing.mayFetch_iff_fetchable (others : Nat) : r.mayFetch others = true ↔ 0 < r.fetchable others := by
  rw [HostRing.mayFetch_iff, HostRing.fetchable]
  omega

theorem HostRing.fetch_fetchable (lawful : r.lawful) {others : Nat} (may : r.mayFetch others = true) :
    r.fetch.fetchable others = r.fetchable others - 1 := by
  have below : ringSub r.size r.posted r.taken < r.size := Nat.mod_lt _ (Nat.zero_lt_of_lt lawful.2.1)
  have unfetched := ((HostRing.mayFetch_iff r others).mp may).1
  have moves := ringSub_succ lawful.2.2.2 lawful.2.2.1 (by omega)
  simp only [HostRing.fetchable, HostRing.fetch, moves, List.length_append, List.length_singleton]
  omega

/-- Admin fetches go out while there are records to fetch and room for them. -/
theorem Body.fetchAdmin_eq {env : Env} {b : Body} (running : env.running = true) (configured : b.admin = some r)
    (lawful : r.lawful) {n : Nat} (enough : r.fetchable b.table.length ≤ n) :
    b.fetchAdmin env n = { b with admin := some (r.fetched (r.fetchable b.table.length)) } := by
  induction n generalizing b r with
  | zero =>
    rw [Nat.le_zero.mp enough, HostRing.fetched_zero lawful, ← configured]
    rfl
  | succ n ih =>
    rw [Body.fetchAdmin, configured]
    by_cases may : r.mayFetch b.table.length = true
    · have fewer := HostRing.fetch_fetchable lawful may
      have some_go := (HostRing.mayFetch_iff_fetchable _).mp may
      simp only [running, may, and_self, if_true]
      rw [ih rfl (HostRing.fetch_lawful lawful) (by dsimp only; omega)]
      simp only [fewer, HostRing.fetch_fetched lawful, Nat.sub_add_cancel some_go]
    · have none_go : r.fetchable b.table.length = 0 := by
        rw [HostRing.mayFetch_iff_fetchable] at may
        omega
      simp only [may, Bool.false_eq_true, and_false, if_false]
      rw [none_go, HostRing.fetched_zero lawful, ← configured]

end

/-! ### The waiting lists that completions join (R160) -/

section

variable {b : Body} {c : Fin 4} {cr : CompletionRing}

/-- The completion has been formed in the event under way. -/
def hasFormed (held : Option Held) : Bool := held.any fun h => h.stage == .formed

/-- The completion of this source has been formed in the event under way, and its ring is `c`. -/
def Body.joins (b : Body) (c : Fin 4) (src : Source) : Bool := b.ringOf src == c && hasFormed (b.heldOf src)

theorem Body.ringOf_setHeldStage (src : Source) (stage : HeldStage) (other : Source) :
    (b.setHeldStage src stage).ringOf other = b.ringOf other := by
  cases other with
  | admin id => rfl
  | stream j =>
    cases src with
    | admin id => rfl
    | stream i =>
      by_cases same : j = i
      · subst same
        rw [Body.ringOf, Body.setHeldStage, Body.modify_stream_self, Body.ringOf]
        cases b.stream j <;> rfl
      · rw [Body.ringOf, Body.setHeldStage, Body.modify_stream_ne same, Body.ringOf]

theorem Body.setHeldStage_joins {src other : Source} (stage : HeldStage) (differs : other ≠ src) :
    (b.setHeldStage src stage).joins c other = b.joins c other := by
  simp [Body.joins, hasFormed, Body.ringOf_setHeldStage, Body.heldOf_setHeldStage, differs]

theorem Body.joins_iff {src : Source} : b.joins c src = true ↔
    b.ringOf src = c ∧ ∃ h, b.heldOf src = some h ∧ h.stage = .formed := by
  simp [Body.joins, hasFormed, Option.any_eq_true]

/-- The body with a source at the tail of its ring's waiting list. -/
def Body.joined (src : Source) (cr : CompletionRing) (b : Body) : Body :=
  { b with completion := b.completion.set (b.ringOf src) (some { cr with waiting := cr.waiting ++ [src] }) }
    |>.setHeldStage src .waiting

/-- A source joins if its completion has been formed and its ring is configured. -/
theorem Body.joinWaiting_cases (b : Body) (src : Source) :
    (∃ cr, b.joins (b.ringOf src) src = true ∧ b.completion[b.ringOf src] = some cr ∧
      b.joinWaiting src = b.joined src cr) ∨
      ((b.joins (b.ringOf src) src = true → b.completion[b.ringOf src] = none) ∧ b.joinWaiting src = b) := by
  unfold Body.joinWaiting
  split
  · next h cr holds configured =>
    split
    · next formed => exact .inl ⟨cr, Body.joins_iff.mpr ⟨rfl, h, holds, formed⟩, configured, rfl⟩
    · next not_formed =>
      refine .inr ⟨fun joins => ?_, rfl⟩
      obtain ⟨-, h', holds', formed⟩ := Body.joins_iff.mp joins
      rw [holds, Option.some_inj] at holds'
      exact absurd (holds' ▸ formed) not_formed
  · next unmatched =>
    refine .inr ⟨fun joins => ?_, rfl⟩
    obtain ⟨-, h, holds, -⟩ := Body.joins_iff.mp joins
    cases configured : b.completion[b.ringOf src] with
    | none => rfl
    | some cr => exact (unmatched h cr holds configured).elim

/-- A source that joins does so at the tail of its own ring's list. -/
theorem Body.joinWaiting_completion (configured : b.completion[c] = some cr) (src : Source) :
    (b.joinWaiting src).completion[c] =
      some { cr with waiting := cr.waiting ++ if b.joins c src then [src] else [] } := by
  rcases b.joinWaiting_cases src with ⟨cr', joins, configured', moved⟩ | ⟨none_joins, stays⟩
  · rw [moved, Body.joined, Body.setHeldStage_completion]
    by_cases own : b.ringOf src = c
    · subst own
      rw [configured, Option.some_inj] at configured'
      simp [joins, configured']
    · have other : ¬b.joins c src = true := fun joins => own (Body.joins_iff.mp joins).1
      have differs : (b.ringOf src).val ≠ c.val := fun same => own (Fin.ext same)
      simpa [other, Vector.getElem_set_ne _ _ differs] using configured
  · have stays_out : ¬b.joins c src = true := fun joins => by
      obtain rfl := (Body.joins_iff.mp joins).1
      exact absurd (configured.symm.trans (none_joins joins)) nofun
    rw [stays, configured]
    simp [stays_out]

/-- Whether a source joins does not depend on the others. -/
theorem Body.joinWaiting_joins {src other : Source} (differs : other ≠ src) :
    (b.joinWaiting src).joins c other = b.joins c other := by
  rcases b.joinWaiting_cases src with ⟨cr', -, -, moved⟩ | ⟨-, stays⟩
  · rw [moved, Body.joined, Body.setHeldStage_joins _ differs]
    rfl
  · rw [stays]

/-- The sources of a list that may join do so in the order of the list. -/
theorem Body.foldl_joinWaiting_completion {sources : List Source} (distinct : sources.Nodup)
    (configured : b.completion[c] = some cr) : (sources.foldl Body.joinWaiting b).completion[c] =
      some { cr with waiting := cr.waiting ++ sources.filter (b.joins c) } := by
  induction sources generalizing b cr with
  | nil => simpa using configured
  | cons src rest ih =>
    obtain ⟨new, distinct_rest⟩ := List.nodup_cons.mp distinct
    have unchanged : rest.filter ((b.joinWaiting src).joins c) = rest.filter (b.joins c) :=
      List.filter_congr fun other mem => Body.joinWaiting_joins fun same => new (same ▸ mem)
    rw [List.foldl_cons, ih distinct_rest (Body.joinWaiting_completion configured src), unchanged, List.filter_cons]
    split <;> simp

/-! ### The sources of one event -/

theorem Body.joinWaiting_stream_table (b : Body) (i : StreamId) : (b.joinWaiting (.stream i)).table = b.table := by
  rcases b.joinWaiting_cases (.stream i) with ⟨cr, -, -, moved⟩ | ⟨-, stays⟩
  · rw [moved]
    exact Body.modify_table ..
  · rw [stays]

/-- The sources that may join in one event: the streams in increasing number, then the entries of the table. -/
def Body.sources (b : Body) : List Source :=
  (List.finRange 16).map Source.stream ++ b.table.map fun e => Source.admin e.id

theorem Body.joinAll_eq (b : Body) : b.joinAll = b.sources.foldl Body.joinWaiting b := by
  have table : ((List.finRange 16).foldl (fun b i => b.joinWaiting (.stream i)) b).table = b.table :=
    foldl_keeps Body.table Body.joinWaiting_stream_table _ b
  have streams : ((List.finRange 16).map Source.stream).foldl Body.joinWaiting b =
      (List.finRange 16).foldl (fun b i => b.joinWaiting (.stream i)) b := List.foldl_map
  rw [Body.joinAll, Body.sources, List.foldl_append, streams]
  simp only [table]

theorem Body.sources_nodup (distinct : (b.table.map Entry.id).Nodup) : b.sources.Nodup := by
  refine List.nodup_append.mpr ⟨nodup_streams.map fun _ _ => Source.stream.inj, ?_, ?_⟩
  · have ids : b.table.map (fun e => Source.admin e.id) = (b.table.map Entry.id).map Source.admin := by
      rw [List.map_map]
      rfl
    exact ids ▸ distinct.map fun _ _ => Source.admin.inj
  · simp

/-- The entry of a table with distinct identities is found by its identity. -/
theorem find?_entry {table : List Entry} (distinct : (table.map Entry.id).Nodup) {e : Entry} (mem : e ∈ table) :
    table.find? (fun x => x.id == e.id) = some e := by
  induction table with
  | nil => cases mem
  | cons x rest ih =>
    obtain ⟨new, distinct_rest⟩ := List.nodup_cons.mp distinct
    rcases List.mem_cons.mp mem with rfl | later
    · simp
    · have differs : x.id ≠ e.id := fun same => new (same ▸ List.mem_map_of_mem later)
      rw [List.find?_cons_of_neg (by simpa using differs), ih distinct_rest later]

theorem Body.joins_stream (i : StreamId) : b.joins c (.stream i) =
    (b.stream i).any fun st => st.bound == c && hasFormed st.held := by
  rw [Body.joins, Body.ringOf, Body.heldOf]
  cases b.stream i <;> simp [hasFormed]

theorem Body.joins_admin (distinct : (b.table.map Entry.id).Nodup) {e : Entry} (mem : e ∈ b.table) :
    b.joins c (.admin e.id) = ((0 : Fin 4) == c && hasFormed e.held) := by
  rw [Body.joins, Body.ringOf, Body.heldOf, find?_entry distinct mem]
  rfl

/-- The completions formed in one event join ring `c`: those of its streams, and for ring 0 those of requests. -/
theorem Body.joinAll_completion (configured : b.completion[c] = some cr) (distinct : (b.table.map Entry.id).Nodup) :
    b.joinAll.completion[c] = some { cr with waiting := cr.waiting ++
      ((List.finRange 16).filter fun i => b.joins c (.stream i)).map Source.stream ++
      (b.table.filter fun e => (0 : Fin 4) == c && hasFormed e.held).map fun e => .admin e.id } := by
  have entries : b.table.filter (b.joins c ∘ fun e => Source.admin e.id) =
      b.table.filter fun e => (0 : Fin 4) == c && hasFormed e.held :=
    List.filter_congr fun e mem => Body.joins_admin distinct mem
  rw [Body.joinAll_eq, Body.foldl_joinWaiting_completion (Body.sources_nodup distinct) configured, Body.sources,
    List.filter_append, List.filter_map, List.filter_map, entries, List.append_assoc]
  rfl

end

/-! ### The completion of a request -/

theorem isStreamCode_iff (code : Byte) : isStreamCode code = true ↔ 1 ≤ code.toNat ∧ code.toNat ≤ 7 := by
  simp [isStreamCode]

/-- The completion of a request carries its record's stream number where the request is a stream's (R169). -/
theorem Entry.complete_eq (status : Status) (result : Nat) (e : Entry) : e.complete status result = { e with
    work := .none
    held := some
      { stage := .formed
        completion :=
          { kind := .admin, stream := if 1 ≤ e.code.toNat ∧ e.code.toNat ≤ 7 then e.field else 0, status := status
            eom := false, gap := false, stamp := none, position := e.position, tag := e.tag, count := result
            code := e.code } } } := by
  simp only [Entry.complete, isStreamCode_iff]

/-! ### The statement -/

/-- Settles O32: the events, the completions and the admin fetches by how many positions are free; then the sources that
join, and the bytes of the records. -/
theorem ringInterfaceServesItsRings : Obligations.RingInterfaceServesItsRings := by
  intro b served writes space
  refine ⟨fun r configured lawful => Body.issueEvents_eq configured lawful le_rfl,
    fun c cr held configured lawful holds _ few => ?_, fun env r running configured lawful _ => ?_,
    fun c cr configured distinct => ?_, Completion.bytes_eq, by decide, Event.bytes_eq, fun i status => ?_⟩
  · have content : ∀ src ∈ cr.waiting, (b.heldOf src).map Held.completion = some (held src).completion :=
      fun src mem => by rw [holds src mem, Option.map_some]
    obtain ⟨completion, ringWrites, stages⟩ :=
      Body.issueCompletions_issued (content := fun src => (held src).completion) configured lawful content few
    exact ⟨completion, ringWrites, fun src mem => by rw [stages src, holds src mem]; rfl⟩
  · exact Body.fetchAdmin_eq running configured lawful ((Nat.min_le_left ..).trans (Nat.sub_le ..))
  · intro formed streams entries
    have streams_join : streams = (List.finRange 16).filter fun i => b.joins c (.stream i) :=
      List.filter_congr fun i _ => (Body.joins_stream i).symm
    have entries_join : entries = b.table.filter fun e => (0 : Fin 4) == c && hasFormed e.held := by
      by_cases first : c = 0
      · simp [entries, formed, hasFormed, first]
      · simp [entries, first, Ne.symm first]
    rw [Body.joinAll_completion configured distinct, streams_join, entries_join]
  · intro plain
    exact ⟨fun e => rfl, fun e => rfl, fun r => ⟨rfl, rfl⟩, fun e result => Entry.complete_eq status result e⟩

end Sys2Proof.Machine
end

section
/-! SUPPORT. The rings, and the records under way from them (R154 to R159): what each operation keeps of a ring's
indices, and that nothing a stream does takes more than 8 records (R155). -/

namespace Sys2Proof.Machine

open Sys2Proof

/-! ### Rings that the part reads -/

theorem validSize_pos {n : Nat} (valid : validSize n = true) : 0 < n := by
  obtain ⟨k, -, -, rfl⟩ := (validSize_iff n).mp valid
  exact Nat.two_pow_pos k

section

variable {r moved : HostRing} {bits : BitVec 256} {index : Nat}

theorem HostRing.fresh_lawful {base : Addr} {size : Nat} (valid : validSize size = true) :
    (HostRing.fresh base size).lawful :=
  ⟨valid, validSize_pos valid, validSize_pos valid, validSize_pos valid⟩

theorem HostRing.post_lawful (l : r.lawful) (below : index < r.size) : (r.post index).lawful := by
  obtain ⟨valid, -, taken, fetchPos⟩ := l
  refine ⟨valid, below, taken, ?_⟩
  simp only [HostRing.post]
  split
  · exact below
  · exact fetchPos

theorem HostRing.post_underway_le (index : Nat) (r : HostRing) : (r.post index).underway ≤ r.underway := by
  simp only [HostRing.underway, HostRing.post, List.length_map]
  exact Nat.add_le_add_left (List.length_filter_le ..) _

theorem HostRing.fetch_underway (r : HostRing) : r.fetch.underway = r.underway + 1 := by
  simp only [HostRing.underway, HostRing.fetch, List.length_append, List.length_singleton]
  omega

theorem HostRing.underway_of_mayFetch {others : Nat} (may : r.mayFetch others = true) : r.underway + others < 8 :=
  ((r.mayFetch_iff others).mp may).2

theorem HostRing.discard_lawful (l : r.lawful) : r.discard.lawful := by
  obtain ⟨valid, posted, taken, -⟩ := l
  exact ⟨valid, posted, taken, taken⟩

theorem HostRing.discard_underway_le (r : HostRing) : r.discard.underway ≤ r.underway := Nat.le_add_right ..

/-- A fetch that ends with an error leaves no more records under way. -/
theorem HostRing.eraseFetch_underway_le (slot : Nat) (r : HostRing) :
    HostRing.underway { r with fetches := r.fetches.eraseIdx slot } ≤ r.underway :=
  Nat.add_le_add_right (List.length_eraseIdx_le ..) _

theorem HostRing.fetchReturned_lawful (slot : Nat) (bits : BitVec 256) (l : r.lawful) :
    (r.fetchReturned slot bits).lawful := by
  unfold HostRing.fetchReturned
  split <;> exact l

theorem HostRing.fetchReturned_underway_le (slot : Nat) (bits : BitVec 256) (r : HostRing) :
    (r.fetchReturned slot bits).underway ≤ r.underway := by
  unfold HostRing.fetchReturned
  split
  · next f at_slot =>
    have in_flight : slot < r.fetches.length := (List.getElem?_eq_some_iff.mp at_slot).1
    simp only [HostRing.underway, List.length_eraseIdx_of_lt in_flight]
    split
    · omega
    · rw [List.length_append, List.length_singleton]
      omega
  · exact Nat.le_refl _

theorem HostRing.next_lawful (l : r.lawful) (next : r.next? = some (bits, moved)) : moved.lawful := by
  obtain ⟨valid, posted, -, fetchPos⟩ := l
  obtain ⟨-, rfl⟩ := HostRing.of_next? next
  exact ⟨valid, posted, Nat.mod_lt _ (validSize_pos valid), fetchPos⟩

/-- The record that is taken is no longer under way. -/
theorem HostRing.next_underway_lt (next : r.next? = some (bits, moved)) : moved.underway < r.underway := by
  obtain ⟨held, rfl⟩ := HostRing.of_next? next
  refine Nat.add_lt_add_left (List.length_filter_lt_length_iff_exists.mpr ⟨_, held, ?_⟩) _
  simp

end

/-! ### Rings that the part writes -/

section

variable {r : PartRing}

theorem PartRing.fresh_lawful {size : Nat} (valid : validSize size = true) (base intAddr : Addr) (intValue : Word) :
    (PartRing.fresh base size intAddr intValue).lawful := ⟨valid, validSize_pos valid, validSize_pos valid⟩

theorem PartRing.interrupt_lawful (l : r.lawful) : r.interrupt.1.lawful := by
  unfold PartRing.interrupt
  split <;> exact l

theorem PartRing.write_lawful (l : r.lawful) (kind : RingWriteKind) (entry : Bool → List Byte) :
    (r.write kind entry).1.lawful :=
  have ⟨valid, _, freed⟩ := l
  PartRing.interrupt_lawful (r := r.advance) ⟨valid, Nat.mod_lt _ (validSize_pos valid), freed⟩

theorem PartRing.consume_lawful {index : Nat} (l : r.lawful) (below : index < r.size) (arm : Bool) :
    (r.consume index arm).1.lawful :=
  have ⟨valid, put, _⟩ := l
  PartRing.interrupt_lawful (r := { r with freed := index, armed := r.armed || arm }) ⟨valid, put, below⟩

end

/-! ### The records of a stream -/

/-- The work ring is lawful, and the records under way from it and those listed come to at most 8 (R155). -/
structure Stream.Fits (st : Stream) : Prop where
  ring : st.ring.lawful
  records : st.ring.underway + st.sends.length + st.receives.length ≤ 8

/-- The change leaves the work ring and lists no further record. -/
structure Stream.ListsNoMore (st st' : Stream) : Prop where
  ring : st'.ring = st.ring
  sends : st'.sends.length ≤ st.sends.length
  receives : st'.receives.length ≤ st.receives.length

section

variable {st st' st'' : Stream} {env : Env} {i : StreamId} {e : Effect}

theorem Stream.ListsNoMore.fits (h : st.ListsNoMore st') (fits : st.Fits) : st'.Fits := by
  obtain ⟨ring, sends, receives⟩ := h
  refine ⟨ring ▸ fits.ring, ?_⟩
  have records := fits.records
  rw [ring]
  omega

theorem Stream.ListsNoMore.trans (h : st.ListsNoMore st') (h' : st'.ListsNoMore st'') : st.ListsNoMore st'' :=
  ⟨h'.ring.trans h.ring, h'.sends.trans h.sends, h'.receives.trans h.receives⟩

/-- A change before another: the second is named first. -/
theorem Stream.ListsNoMore.after (h' : st'.ListsNoMore st'') (h : st.ListsNoMore st') : st.ListsNoMore st'' :=
  h.trans h'

/-- A change beside the work ring and the record lists. -/
theorem Stream.ListsNoMore.aside (same : (st'.ring, st'.sends, st'.receives) = (st.ring, st.sends, st.receives)) :
    st.ListsNoMore st' := by
  simp only [Prod.mk.injEq] at same
  obtain ⟨ring, sends, receives⟩ := same
  exact ⟨ring, sends ▸ Nat.le_refl _, receives ▸ Nat.le_refl _⟩

theorem Stream.ListsNoMore.refl (st : Stream) : st.ListsNoMore st := .aside rfl

/-- The ring takes another state with no more records under way. -/
theorem Stream.Fits.withRing {r : HostRing} (fits : st.Fits) (lawful : r.lawful)
    (fewer : r.underway ≤ st.ring.underway) : Stream.Fits { st with ring := r } := by
  refine ⟨lawful, ?_⟩
  have records := fits.records
  dsimp only
  omega

/-- A fetch that ended in an error leaves the list. -/
theorem Stream.Fits.dropFetch (fits : st.Fits) (slot : Nat) :
    Stream.Fits { st with ring := { st.ring with fetches := st.ring.fetches.eraseIdx slot } } :=
  fits.withRing (r := { st.ring with fetches := st.ring.fetches.eraseIdx slot }) fits.ring
    (HostRing.eraseFetch_underway_le slot st.ring)

/-! ### Changes of the packets, the sequence state and the stage -/

theorem Stream.listsNoMore_setGap (st : Stream) : st.ListsNoMore st.setGap := by
  unfold Stream.setGap
  split <;> exact .aside rfl

theorem Stream.listsNoMore_flushDiscard (p : Buffer → Bool) (st : Stream) : st.ListsNoMore (st.flushDiscard p) := by
  unfold Stream.flushDiscard
  split
  · exact .trans (st' := st.discard p) (.aside rfl) (Stream.listsNoMore_setGap _)
  · exact .refl st

theorem Stream.listsNoMore_bringBack (st : Stream) : st.ListsNoMore st.bringBack :=
  ⟨rfl, Nat.le_refl _, (List.length_map _).le⟩

theorem Stream.listsNoMore_modSend (n : Nat) (f : SendEntry → SendEntry) (st : Stream) :
    st.ListsNoMore (st.modSend n f) := ⟨rfl, (List.length_map _).le, Nat.le_refl _⟩

theorem Stream.listsNoMore_modHead (f : ReceiveEntry → ReceiveEntry) (st : Stream) : st.ListsNoMore (st.modHead f) := by
  refine ⟨rfl, Nat.le_refl _, ?_⟩
  unfold Stream.modHead
  cases st.receives <;> exact Nat.le_refl _

theorem Stream.listsNoMore_abandon (st : Stream) : st.ListsNoMore st.abandon := .aside (by simp)

theorem Stream.listsNoMore_beginHalt (cause : HaltCause) (st : Stream) : st.ListsNoMore (st.beginHalt cause) := by
  unfold Stream.beginHalt
  split
  · exact .trans st.listsNoMore_abandon (.aside rfl)
  · exact .aside rfl

theorem Stream.listsNoMore_beginAbort (st : Stream) : st.ListsNoMore st.beginAbort :=
  .trans st.listsNoMore_abandon (.aside rfl)

theorem Stream.listsNoMore_beginFlush (st : Stream) : st.ListsNoMore st.beginFlush := by
  have flushing : st.ListsNoMore
      { st with state := .flushing, stage := .waiting, request := some .flush, discarded := 0 } := .aside rfl
  unfold Stream.beginFlush
  dsimp only
  split
  · exact flushing
  · exact flushing.trans (Stream.listsNoMore_flushDiscard _ _)

/-! ### Credits, answers and the ends of transfers -/

theorem Stream.listsNoMore_credit (n : Nat) (mark : Bool) (cycle : CycleNum) (st : Stream) :
    st.ListsNoMore (st.credit n mark cycle) := by
  refine ⟨rfl, ?_, Nat.le_refl _⟩
  simp only [Stream.credit, List.length_zipWith]
  exact Nat.min_le_left ..

theorem Stream.listsNoMore_confirm (k : Nat) (cycle : CycleNum) (st : Stream) :
    st.ListsNoMore (st.confirm k cycle) :=
  .trans (st' := st.freeBuffer k) (.aside rfl) (Stream.listsNoMore_credit _ _ _ _)

theorem Stream.listsNoMore_accepted (bit : Bool) (cycle : CycleNum) (st : Stream) :
    st.ListsNoMore (st.accepted bit cycle) := by
  unfold Stream.accepted
  split
  · split
    · exact .trans (Stream.listsNoMore_confirm _ cycle st) (.aside rfl)
    · exact .refl st
  · exact .refl st

theorem Stream.listsNoMore_deferred (bit : Bool) (st : Stream) : st.ListsNoMore (st.deferred bit) := by
  unfold Stream.deferred
  repeat' split
  all_goals exact .aside rfl

theorem Stream.listsNoMore_advanceAnswer (st : Stream) : st.ListsNoMore st.advanceAnswer := by
  unfold Stream.advanceAnswer
  repeat' split
  all_goals exact .aside rfl

theorem Stream.listsNoMore_sendHead {k : Nat} {mark bit : Bool} {data : List Byte}
    (head : st.sendHead = some (st', k, mark, bit, data)) : st.ListsNoMore st' := by
  unfold Stream.sendHead at head
  split at head
  all_goals cases head
  all_goals exact .aside rfl

theorem Stream.listsNoMore_scheduledSent (k : Nat) (cycle : CycleNum) (st : Stream) :
    st.ListsNoMore (st.scheduledSent k cycle) := by
  unfold Stream.scheduledSent
  dsimp only
  split
  · exact .trans (st' := { st with seq := st.seq.countUp }) (.aside rfl) (Stream.listsNoMore_confirm _ _ _)
  · exact .aside rfl

theorem Stream.listsNoMore_countWrite (w : ReceiveWrite) (st : Stream) : st.ListsNoMore (st.countWrite w) := by
  unfold Stream.countWrite
  split
  · split
    · dsimp only
      split
      · exact .trans (Stream.listsNoMore_modHead _ st) (.aside rfl)
      · exact .trans (Stream.listsNoMore_modHead _ st) (.aside rfl)
    · exact .refl st
  · exact .refl st

/-! ### Records that leave or complete -/

theorem Stream.ListsNoMore.sendLeaves {x : SendEntry} {xs : List SendEntry} (sends : st.sends = x :: xs)
    (same : (st'.ring, st'.sends, st'.receives) = (st.ring, xs, st.receives)) : st.ListsNoMore st' := by
  simp only [Prod.mk.injEq] at same
  obtain ⟨ring, left, receives⟩ := same
  exact ⟨ring, by rw [left, sends]; exact Nat.le_succ _, receives ▸ Nat.le_refl _⟩

theorem Stream.ListsNoMore.receiveLeaves {x : ReceiveEntry} {xs : List ReceiveEntry} (receives : st.receives = x :: xs)
    (same : (st'.ring, st'.sends, st'.receives) = (st.ring, st.sends, xs)) : st.ListsNoMore st' := by
  simp only [Prod.mk.injEq] at same
  obtain ⟨ring, sends, left⟩ := same
  exact ⟨ring, sends ▸ Nat.le_refl _, by rw [left, receives]; exact Nat.le_succ _⟩

theorem Stream.listsNoMore_leaveOne (h : st.leaveOne i = some st') : st.ListsNoMore st' := by
  unfold Stream.leaveOne at h
  split at h
  · split at h
    · split at h
      · next sends =>
        split at h <;> cases h
        split
        · exact .sendLeaves sends rfl
        · exact .sendLeaves sends rfl
      · cases h
    · split at h
      · next receives =>
        split at h <;> cases h
        split
        · exact .receiveLeaves receives rfl
        · exact .receiveLeaves receives rfl
      · cases h
  · cases h

theorem Stream.listsNoMore_completeNext (i : StreamId) (status : Status) (st : Stream) :
    st.ListsNoMore (st.completeNext i status) := by
  unfold Stream.completeNext
  split
  · next sends => exact .sendLeaves sends rfl
  · next receives => exact .receiveLeaves receives rfl
  · repeat' split
    all_goals exact .aside rfl

theorem Stream.listsNoMore_completeHeadOnly (i : StreamId) (status : Status) (st : Stream) :
    st.ListsNoMore (st.completeHeadOnly i status) := by
  unfold Stream.completeHeadOnly
  split
  · next receives => exact .receiveLeaves receives rfl
  · exact .aside rfl

theorem Stream.listsNoMore_windCompletions {x : Stream × Effect}
    (h : (st.windCompletions i).map (fun x => (x, Effect.none)) = some x) : st.ListsNoMore x.1 := by
  obtain ⟨y, completes, rfl⟩ := Option.map_eq_some_iff.mp h
  unfold Stream.windCompletions at completes
  repeat' split at completes
  all_goals cases completes
  · exact Stream.listsNoMore_completeHeadOnly ..
  · exact Stream.listsNoMore_completeNext ..
  · exact .aside rfl

/-! ### The work of a halt, a flush, a close and an abort -/

theorem Stream.listsNoMore_windHalting {x : Stream × Effect} (h : st.windHalting i = some x) : st.ListsNoMore x.1 := by
  unfold Stream.windHalting at h
  split at h
  · split at h
    · cases dir : st.dir <;> rw [dir] at h <;> cases h
      · exact .aside rfl
      · exact .trans st.listsNoMore_bringBack (.aside rfl)
    · cases h
  · split at h <;> cases h
    exact .aside rfl
  · dsimp only at h
    split at h
    · cases h
      exact .aside rfl
    · split at h <;> cases h
      · exact .aside rfl
      · exact .trans (st' := { st with failed := none }) (.aside rfl)
          (.trans (Stream.listsNoMore_flushDiscard Buffer.isKept _) (.aside rfl))
    · split at h <;> cases h
      exact .aside rfl
    · cases h
      exact .aside rfl
  · exact Stream.listsNoMore_windCompletions h

theorem Stream.listsNoMore_windFlushing {x : Stream × Effect} (h : st.windFlushing i = some x) :
    st.ListsNoMore x.1 := by
  unfold Stream.windFlushing at h
  split at h
  · cases dir : st.dir <;> rw [dir] at h <;> dsimp only at h <;> split at h <;> cases h
    · exact .aside rfl
    · exact (st.listsNoMore_flushDiscard Buffer.isDraining).trans
        (.trans (Stream.listsNoMore_bringBack _) (.aside rfl))
  · split at h
    · cases h
    · cases dir : st.dir <;> rw [dir] at h <;> cases h
      · exact .aside rfl
      · exact .aside rfl
  · cases h
    exact .aside rfl
  · exact Stream.listsNoMore_windCompletions h

theorem Stream.listsNoMore_windClosing {x : Stream × Effect} (h : st.windClosing i = some x) : st.ListsNoMore x.1 := by
  unfold Stream.windClosing at h
  split at h
  · split at h <;> cases h
    exact .refl st
  · split at h
    · split at h <;> cases h
      exact .aside rfl
    · split at h <;> cases h
      exact .aside rfl
    · repeat' split at h
      all_goals cases h
      · exact .aside rfl
      · exact .refl st
    · exact Stream.listsNoMore_windCompletions h

theorem Stream.listsNoMore_windAborting {x : Stream × Effect} (h : st.windAborting i = some x) :
    st.ListsNoMore x.1 := by
  unfold Stream.windAborting at h
  split at h
  · split at h
    · cases dir : st.dir <;> rw [dir] at h <;> cases h
      · exact .aside rfl
      · exact .aside rfl
    · cases h
  · split at h <;> cases h
    exact .refl st
  · exact Stream.listsNoMore_windCompletions h

theorem Stream.listsNoMore_wind {x : Stream × Effect} (h : st.wind i = some x) : st.ListsNoMore x.1 := by
  unfold Stream.wind at h
  split at h
  · cases h
  · cases h
  · exact Stream.listsNoMore_windHalting h
  · exact Stream.listsNoMore_windFlushing h
  · exact Stream.listsNoMore_windClosing h
  · exact Stream.listsNoMore_windAborting h

/-! ### The assembler and the distributor -/

theorem Stream.listsNoMore_placeOne (h : st.placeOne = some st') : st.ListsNoMore st' := by
  unfold Stream.placeOne at h
  repeat' split at h
  all_goals cases h
  unfold Stream.placeBytes
  dsimp only
  split
  · exact .trans (Stream.listsNoMore_modSend _ _ st) (.after (Stream.listsNoMore_modSend _ _ _) (.aside rfl))
  · split
    · exact .trans (Stream.listsNoMore_modSend _ _ st) (.aside rfl)
    · exact .trans (Stream.listsNoMore_modSend _ _ st) (.aside rfl)

theorem Stream.listsNoMore_commitEmptyMark {x : SendEntry} (h : st.commitEmptyMark x = some st') :
    st.ListsNoMore st' := by
  unfold Stream.commitEmptyMark at h
  dsimp only at h
  repeat' split at h
  all_goals cases h
  all_goals exact .after (Stream.listsNoMore_modSend _ _ _) (.aside rfl)

theorem Stream.listsNoMore_issueRead (x : SendEntry) (n : Nat) (st : Stream) : st.ListsNoMore (st.issueRead x n) := by
  unfold Stream.issueRead
  dsimp only
  split
  · exact .trans (.aside rfl) (.trans (Stream.listsNoMore_modSend _ _ _) (.aside rfl))
  · exact .trans (Stream.listsNoMore_modSend _ _ st) (.aside rfl)

theorem Stream.listsNoMore_assembleOne (h : st.assembleOne = some st') : st.ListsNoMore st' := by
  unfold Stream.assembleOne at h
  split at h
  · split at h
    · cases h
    · split at h
      · split at h
        · exact Stream.listsNoMore_commitEmptyMark h
        · cases h
      · split at h <;> cases h
        exact Stream.listsNoMore_issueRead _ _ st
  · cases h

theorem Stream.listsNoMore_closeCommit (h : st.closeCommit = some st') : st.ListsNoMore st' := by
  unfold Stream.closeCommit at h
  repeat' split at h
  all_goals cases h
  exact .aside rfl

theorem Stream.listsNoMore_takeHeld (h : st.takeHeld = some st') : st.ListsNoMore st' := by
  unfold Stream.takeHeld at h
  repeat' split at h
  all_goals cases h
  · exact .after (Stream.listsNoMore_modHead _ _) (.aside rfl)
  · exact .aside rfl

theorem Stream.listsNoMore_issueWrite (h : st.issueWrite = some st') : st.ListsNoMore st' := by
  unfold Stream.issueWrite at h
  repeat' split at h
  all_goals cases h
  exact .trans (.trans (.aside rfl) (Stream.listsNoMore_modHead _ _)) (.aside rfl)

/-! ### The work ring -/

theorem Stream.Fits.dropReturned (fits : st.Fits) (h : st.dropReturned = some st') : st'.Fits := by
  unfold Stream.dropReturned at h
  split at h <;> cases h
  exact fits.withRing (HostRing.discard_lawful fits.ring) st.ring.discard_underway_le

/-- A fetch goes out where fewer than 8 records are under way or listed (R155). -/
theorem Stream.Fits.fetchOne (fits : st.Fits) (h : st.fetchOne env = some st') : st'.Fits := by
  unfold Stream.fetchOne at h
  split at h <;> cases h
  next due =>
  refine ⟨HostRing.fetch_lawful fits.ring, ?_⟩
  have room := HostRing.underway_of_mayFetch due.2.2.2
  dsimp only
  rw [HostRing.fetch_underway]
  omega

/-- A record that is handed on leaves the ring before it joins a list (R47, R67). -/
theorem Stream.Fits.handOn {x : Stream × Effect} (fits : st.Fits) (h : st.handOn env = some x) : x.1.Fits := by
  by_cases takes : st.takesRecords
  · cases next : st.ring.next? with
    | none => exact absurd ((Stream.handOn_none (env := env) (.inr next)).symm.trans h) nofun
    | some taken =>
      obtain ⟨bits, ring⟩ := taken
      have lawful := HostRing.next_lawful fits.ring next
      have fewer := HostRing.next_underway_lt next
      have took : Stream.Fits { st with ring := ring } := fits.withRing lawful fewer.le
      have records := fits.records
      rw [Stream.handOn_eq takes next] at h
      split at h
      · cases h
        split
        · refine ⟨lawful, ?_⟩
          simp only [Stream.joinSend, List.length_append, List.length_singleton]
          omega
        · refine ⟨lawful, ?_⟩
          simp only [Stream.joinReceive, List.length_append, List.length_singleton]
          omega
      · split at h <;> cases h
        · refine ((Stream.listsNoMore_beginHalt ..).after ?_).fits took
          exact .aside rfl
        · exact took
  · exact absurd ((Stream.handOn_none (env := env) (.inl takes)).symm.trans h) nofun

/-- No internal action of a stream takes more records than there is room for (R155). -/
theorem Stream.Fits.internal (fits : st.Fits) {x : Stream × Effect} (h : st.internal env i = some x) : x.1.Fits := by
  have of_plain : ∀ (o : Option Stream) (x : Stream × Effect), (∀ s, o = some s → s.Fits) →
      plain o = some x → x.1.Fits := by
    intro o x all acts
    obtain ⟨s, found, rfl⟩ := Option.map_eq_some_iff.mp acts
    exact all s found
  refine Stream.fixed_firstSome (P := fun x : Stream × Effect => x.1.Fits) _ ?_ h
  intro o ho x acts
  simp only [List.mem_cons, List.not_mem_nil, or_false] at ho
  rcases ho with rfl | rfl | rfl | rfl | rfl | rfl | rfl | rfl | rfl | rfl
  · exact of_plain _ x (fun _ h => (Stream.listsNoMore_leaveOne h).fits fits) acts
  · exact of_plain _ x (fun _ h => (Stream.listsNoMore_placeOne h).fits fits) acts
  · exact of_plain _ x (fun _ h => fits.dropReturned h) acts
  · exact (Stream.listsNoMore_wind acts).fits fits
  · exact fits.handOn acts
  · exact of_plain _ x (fun _ h => (Stream.listsNoMore_assembleOne h).fits fits) acts
  · exact of_plain _ x (fun _ h => (Stream.listsNoMore_closeCommit h).fits fits) acts
  · exact of_plain _ x (fun _ h => (Stream.listsNoMore_takeHeld h).fits fits) acts
  · exact of_plain _ x (fun _ h => (Stream.listsNoMore_issueWrite h).fits fits) acts
  · exact of_plain _ x (fun _ h => fits.fetchOne h) acts

theorem Stream.opened_fits {p : OpenParams} (valid : validSize p.size.toNat = true) (up : Bool) :
    (Stream.opened up p).Fits := ⟨HostRing.fresh_lawful valid, Nat.zero_le _⟩

end

end Sys2Proof.Machine
end

section
/-! SUPPORT. What every operation on the body keeps: the laws of the pending events, of what Link Transfer holds, and of
the rings with the records under way from them (R113, R126, R155, R157, R174). -/

namespace Sys2Proof.Machine

-- Elaborated in parallel, the proofs of this part wait for one another on threads that pass the check's memory limit.
set_option Elab.async false

open Sys2Proof

/-! ### The pending event list (R174) -/

/-- What tells one pending event from another: its source and its kind (R174). -/
def Event.key (e : Event) : Option StreamId × Nat := (e.source, e.detail.kind)

/-- One pending event for each pair of source and kind, and counts of 1 to 255 (R174). -/
structure PendingLaw (es : List Event) : Prop where
  pairs : (es.map Event.key).Nodup
  counts : ∀ e ∈ es, 1 ≤ e.count ∧ e.count ≤ 255

section

variable {es es' : List Event}

/-- A raised event joins the tail where its source and kind are not pending, and changes no pair where they are. -/
theorem raiseInto_keys (source : Option StreamId) (d : Detail) (es : List Event) :
    (raiseInto source d es).map Event.key =
      if (source, d.kind) ∈ es.map Event.key then es.map Event.key else es.map Event.key ++ [(source, d.kind)] := by
  induction es with
  | nil => rfl
  | cons e es ih =>
    by_cases takes : e.source = source ∧ e.detail.kind = d.kind
    · simp [raiseInto, takes, Event.key]
    · have other : (source, d.kind) ≠ e.key := fun same =>
        takes ⟨(congrArg Prod.fst same).symm, (congrArg Prod.snd same).symm⟩
      rw [raiseInto, if_neg takes, List.map_cons, ih, List.map_cons]
      simp only [List.mem_cons, other, false_or]
      split <;> rfl

theorem PendingLaw.raise (l : PendingLaw es) (source : Option StreamId) (d : Detail) :
    PendingLaw (raiseInto source d es) where
  pairs := by
    rw [raiseInto_keys]
    split
    · exact l.pairs
    · next absent => exact List.nodup_append.mpr ⟨l.pairs, List.nodup_singleton _, by
        rintro _ mem _ (single : _ ∈ [_]) rfl
        exact absent (List.mem_singleton.mp single ▸ mem)⟩
  counts := by
    have counts := l.counts
    clear l
    induction es with
    | nil => simp [raiseInto]
    | cons e es ih =>
      obtain ⟨head, tail⟩ := List.forall_mem_cons.mp counts
      rw [raiseInto]
      split
      · refine List.forall_mem_cons.mpr ⟨?_, tail⟩
        dsimp only
        split <;> omega
      · exact List.forall_mem_cons.mpr ⟨head, ih tail⟩

/-- Events that are withdrawn or written leave the list. -/
theorem PendingLaw.sublist (l : PendingLaw es) (sub : es'.Sublist es) : PendingLaw es' :=
  ⟨l.pairs.sublist (sub.map _), fun e mem => l.counts e (sub.subset mem)⟩

end

/-! ### What Link Transfer holds (R113, R126) -/

/-- At most one notice for each stream, and outside UP no budget, no turn, no notice and no marker (R113, R126). -/
structure LinkTransfer.lawful (up : Bool) (lt : LinkTransfer) : Prop where
  notices : (lt.notices.map Notice.stream).Nodup
  down : up = false → lt.budget = 0 ∧ lt.turn = none ∧ lt.notices = [] ∧ lt.markerDue = false

section

variable {up : Bool} {lt lt' : LinkTransfer}

/-- A change of the due frames, the lane or the round-robin position. -/
theorem LinkTransfer.lawful.aside (l : lt.lawful up)
    (same : (lt'.notices, lt'.budget, lt'.turn, lt'.markerDue) = (lt.notices, lt.budget, lt.turn, lt.markerDue)) :
    lt'.lawful up := by
  simp only [Prod.mk.injEq] at same
  obtain ⟨notices, budget, turn, markerDue⟩ := same
  exact ⟨notices ▸ l.notices, fun down => by rw [budget, turn, notices, markerDue]; exact l.down down⟩

/-- While the link is UP only the notices are bound. -/
theorem LinkTransfer.lawful_up (notices : (lt.notices.map Notice.stream).Nodup) : lt.lawful true := ⟨notices, nofun⟩

theorem LinkTransfer.stop_lawful (up : Bool) (lt : LinkTransfer) : lt.stop.lawful up :=
  ⟨List.nodup_nil, fun _ => ⟨rfl, rfl, rfl, rfl⟩⟩

@[simp] theorem Notice.advance_stream (n : Notice) : n.advance.stream = n.stream := by
  unfold Notice.advance
  split
  · rfl
  · split <;> rfl

/-- A change of the queued notices that leaves their streams. -/
theorem map_notices_stream {f : Notice → Notice} (same : ∀ n, (f n).stream = n.stream) (notices : List Notice) :
    (notices.map f).map Notice.stream = notices.map Notice.stream := by
  rw [List.map_map]
  exact List.map_congr_left fun n _ => same n

end

/-! ### The laws of a body -/

/-- The laws of the pending events, of Link Transfer in this link state, and of the rings with what is taken from them
(R113, R126, R155, R157, R174). -/
structure Body.Orderly (up : Bool) (b : Body) : Prop where
  pending : PendingLaw b.events
  transfer : b.lt.lawful up
  admin : ∀ r ∈ b.admin, r.lawful
  requests : (b.admin.map HostRing.underway).getD 0 + b.table.length ≤ 8
  completion : ∀ c : Fin 4, ∀ cr ∈ b.completion[c], cr.ring.lawful
  event : ∀ r ∈ b.event, r.lawful
  streams : ∀ i, ∀ st ∈ b.stream i, st.Fits

/-- The part's events, notices and rings meet their laws. -/
def State.Orderly (s : State) : Prop := s.body.Orderly s.isUp

theorem State.orderly_iff (s : State) : s.Orderly ↔ EventLaw s ∧ TransferLaw s ∧ RingLaw s := by
  constructor
  · rintro ⟨⟨pairs, counts⟩, ⟨notices, down⟩, admin, requests, completion, event, streams⟩
    exact ⟨⟨pairs, counts⟩, ⟨notices, down⟩, admin, requests, completion, event, fun i st h => (streams i st h).ring,
      fun i st h => (streams i st h).records⟩
  · rintro ⟨⟨pairs, counts⟩, ⟨notices, down⟩, admin, requests, completion, event, work, records⟩
    exact ⟨⟨pairs, counts⟩, ⟨notices, down⟩, admin, requests, completion, event,
      fun i st h => ⟨work i st h, records i st h⟩⟩

section

variable {up : Bool} {b b' : Body} {i : StreamId} {st st' : Stream}

/-! ### Changes beside the streams -/

/-- A change beside the events, Link Transfer's books, the rings and the streams, with no more requests in the table. -/
theorem Body.Orderly.aside (h : b.Orderly up)
    (same : (b'.events, b'.lt.notices, b'.lt.budget, b'.lt.turn, b'.lt.markerDue, b'.admin, b'.completion, b'.event,
      b'.streams) = (b.events, b.lt.notices, b.lt.budget, b.lt.turn, b.lt.markerDue, b.admin, b.completion, b.event,
      b.streams))
    (table : b'.table.length ≤ b.table.length := by exact Nat.le_refl _) : b'.Orderly up := by
  simp only [Prod.mk.injEq] at same
  obtain ⟨events, notices, budget, turn, markerDue, admin, completion, event, streams⟩ := same
  refine ⟨events ▸ h.pending, h.transfer.aside (by rw [notices, budget, turn, markerDue]), admin ▸ h.admin, ?_,
    completion ▸ h.completion, event ▸ h.event, fun j st opened => h.streams j st ?_⟩
  · rw [admin]
    exact (Nat.add_le_add_left table _).trans h.requests
  · rwa [Body.stream_of_streams_eq streams] at opened

/-- Link Transfer's books change, and what is pending stays. -/
theorem Body.Orderly.transfers (h : b.Orderly up) {up' : Bool} {lt : LinkTransfer} (lawful : lt.lawful up') :
    Body.Orderly up' { b with lt := lt } := { h with transfer := lawful }

theorem Body.Orderly.withEvents (h : b.Orderly up) {es : List Event} (lawful : PendingLaw es) :
    Body.Orderly up { b with events := es } := { h with pending := lawful }

theorem Body.Orderly.raise (h : b.Orderly up) (source : Option StreamId) (d : Detail) : (b.raise source d).Orderly up :=
  h.withEvents (h.pending.raise source d)

theorem Body.Orderly.withRx (h : b.Orderly up) (rx : Option Reception) : Body.Orderly up { b with rx := rx } :=
  h.aside rfl

theorem Body.Orderly.addDue (h : b.Orderly up) (f : ControlFrame) : (b.addDue f).Orderly up := h.aside rfl

theorem Body.Orderly.dropDue (h : b.Orderly up) (p : ControlFrame → Bool) : (b.dropDue p).Orderly up := h.aside rfl

theorem Body.Orderly.completeIf (h : b.Orderly up) (p : Entry → Bool) (status : Status) (n : Nat) :
    (b.completeIf p status n).Orderly up := h.aside rfl (List.length_map _).le

theorem Body.Orderly.setWork (h : b.Orderly up) (id : Nat) (w : Work) : (b.setWork id w).Orderly up :=
  h.aside rfl (List.length_map _).le

theorem Body.Orderly.completePending (h : b.Orderly up) (pending : Option Nat) (status : Status) :
    (b.completePending pending status).Orderly up := by
  cases pending
  · exact h
  · exact h.completeIf _ _ _

/-- A notice that is placed replaces the one queued for its stream (R126). -/
theorem Body.Orderly.placeNotice (h : b.Orderly true) (i : StreamId) (closed : Bool) :
    (b.placeNotice i closed).Orderly true := by
  refine h.transfers (LinkTransfer.lawful_up ?_)
  have others : ((b.lt.notices.filter (·.stream != i)).map Notice.stream).Nodup :=
    h.transfer.notices.sublist (List.filter_sublist.map _)
  rw [List.map_append]
  refine List.nodup_append.mpr ⟨others, List.nodup_singleton _, ?_⟩
  intro j mem k single same
  obtain ⟨n, kept, rfl⟩ := List.mem_map.mp mem
  simp [same, List.mem_singleton.mp single] at kept

/-! ### A store event of one stream -/

theorem Body.Orderly.put (h : b.Orderly up) (fits : st'.Fits) : (b.put i st st').Orderly up := by
  rw [Body.put_eq]
  refine { h with pending := ?_, transfer := h.transfer.aside rfl, streams := fun j x opened => ?_ }
  · split
    · exact h.pending.raise _ _
    · exact h.pending
  · by_cases at_i : i = j
    · subst at_i
      obtain rfl : st.stored st' = x := by simpa [Body.stream] using opened
      exact (Stream.ListsNoMore.aside (st := st') (st' := st.stored st') rfl).fits fits
    · have apart : ¬i.val = j.val := fun same => at_i (Fin.ext same)
      exact h.streams j x (by simpa [Body.stream, apart] using opened)

/-- A store event that lists no further record. -/
theorem Body.Orderly.change (h : b.Orderly up) (opened : b.stream i = some st) (fewer : st.ListsNoMore st') :
    (b.put i st st').Orderly up := h.put (fewer.fits (h.streams i st opened))

theorem Body.Orderly.modify (h : b.Orderly up) {f : Stream → Stream} (fewer : ∀ st : Stream, st.ListsNoMore (f st)) :
    (b.modify i f).Orderly up := by
  cases opened : b.stream i with
  | none => rwa [Body.modify_none opened]
  | some st => rw [Body.modify_some opened]; exact h.change opened (fewer st)

theorem Body.Orderly.foldl {α : Type} {step : Body → α → Body} (h : b.Orderly up)
    (keeps : ∀ b a, b.Orderly up → (step b a).Orderly up) (l : List α) : (l.foldl step b).Orderly up :=
  foldl_invariant _ keeps l b h

theorem Body.Orderly.modifyAll (h : b.Orderly up) {f : Stream → Stream} (fewer : ∀ st : Stream, st.ListsNoMore (f st)) :
    (b.modifyAll f).Orderly up := h.foldl (fun _ _ h => h.modify fewer) _

/-- A stream is closed, or opened with a ring that fits. -/
theorem Body.Orderly.setStream (h : b.Orderly up) {o : Option Stream} (fits : ∀ st ∈ o, st.Fits) (i : StreamId) :
    Body.Orderly up { b with streams := b.streams.set i o } := by
  refine { h with streams := fun j x opened => ?_ }
  by_cases at_i : i = j
  · subst at_i
    exact fits x (by simpa [Body.stream] using opened)
  · have apart : ¬i.val = j.val := fun same => at_i (Fin.ext same)
    exact h.streams j x (by simpa [Body.stream, apart] using opened)

/-! ### Halts and release -/

theorem Body.Orderly.halt (h : b.Orderly up) (i : StreamId) (cause : HaltCause) : (b.halt i cause).Orderly up := by
  unfold Body.halt
  split
  · next st opened =>
    split
    · exact (h.change opened (st.listsNoMore_beginHalt cause)).raise _ _
    · exact h
  · exact h

theorem Body.Orderly.haltOrAbandon (h : b.Orderly up) (i : StreamId) (cause : HaltCause) :
    (b.haltOrAbandon i cause).Orderly up := by
  unfold Body.haltOrAbandon
  split
  · next st opened =>
    split
    · exact h.halt i cause
    split
    · exact h.change opened st.listsNoMore_abandon
    · exact h
  · exact h

theorem Body.Orderly.resynchronise (h : b.Orderly true) (up : Bool) (i : StreamId) :
    (b.resynchronise up i).Orderly true := by
  have reset : (b.modify i Stream.resetSeq).Orderly true := h.modify fun _ => .aside rfl
  unfold Body.resynchronise
  dsimp only
  split
  · exact reset.placeNotice i false
  · exact reset

theorem Body.Orderly.release (h : b.Orderly up) (i : StreamId) (st : Stream) : (b.release up i st).Orderly up := by
  have gone : Body.Orderly up { b with
      streams := b.streams.set i none
      blocks := releaseBlocks i b.blocks
      events := b.events.filter fun e => !(e.source == some i && e.detail.kind == 3)
      rx := dropClaim i b.rx
      lt := { b.lt with lane := cutStream i b.lt.lane } } :=
    ((h.setStream (o := none) (fun _ held => by cases held) i).withEvents
      (h.pending.sublist List.filter_sublist)).aside rfl
  unfold Body.release
  dsimp only
  rw [Body.completeRelease_eq]
  refine Body.Orderly.completeIf ?_ _ _ _
  cases up
  · exact gone
  · exact gone.placeNotice i true

/-! ### The internal actions of the streams -/

theorem Body.Orderly.act {env : Env} {e : Effect} (h : b.Orderly env.up) (opened : b.stream i = some st)
    (acts : st.internal env i = some (st', e)) : (b.act env i st st' e).Orderly env.up := by
  have stored : (b.put i st st').Orderly env.up := h.put ((h.streams i st opened).internal acts)
  cases e with
  | none => exact stored
  | halted cause => exact stored.raise _ _
  | flushed => exact stored.completeIf _ _ _
  | released => exact stored.release i st'

theorem Body.Orderly.runStreams {env : Env} (h : b.Orderly env.up) : (b.runStreams env).Orderly env.up :=
  Body.runStreams_invariant (P := fun b => b.Orderly env.up) (fun _ _ _ _ _ h opened acts => h.act opened acts) b h

/-! ### The Ring Interface -/

theorem Body.Orderly.setHeldStage (h : b.Orderly up) (src : Source) (stage : HeldStage) :
    (b.setHeldStage src stage).Orderly up := by
  cases src
  · exact h.modify fun _ => .aside rfl
  · exact h.aside rfl (List.length_map _).le

/-- A completion ring that is written, read or waited for stays lawful. -/
theorem Body.Orderly.setCompletion (h : b.Orderly up) {r : PartRing} (lawful : r.lawful) (waiting : List Source)
    (c : Fin 4) :
    Body.Orderly up { b with completion := b.completion.set c (some { ring := r, waiting := waiting }) } := by
  refine { h with completion := fun d x configured => ?_ }
  by_cases at_c : c = d
  · subst at_c
    obtain rfl : { ring := r, waiting := waiting } = x := by simpa using configured
    exact lawful
  · have apart : ¬c.val = d.val := fun same => at_c (Fin.ext same)
    exact h.completion d x (by simpa [apart] using configured)

theorem Body.Orderly.joinWaiting (h : b.Orderly up) (src : Source) : (b.joinWaiting src).Orderly up := by
  unfold Body.joinWaiting
  split
  · next configured =>
    split
    · exact (h.setCompletion (h.completion _ _ configured) _ _).setHeldStage src .waiting
    · exact h
  · exact h

theorem Body.Orderly.issueCompletions (h : b.Orderly up) (n : Nat) (c : Fin 4) :
    (b.issueCompletions n c).Orderly up := by
  induction n generalizing b with
  | zero => exact h
  | succ n ih =>
    rw [Body.issueCompletions]
    split
    · next cr configured =>
      have lawful : cr.ring.lawful := h.completion c cr configured
      split
      · next src rest _ =>
        split
        · split
          · refine ih (Body.Orderly.setHeldStage ?_ src .writing)
            exact (h.setCompletion (PartRing.write_lawful lawful _ _) rest c).aside rfl
          · exact ih (h.setCompletion lawful rest c)
        · exact h
      · exact h
    · exact h

theorem Body.Orderly.issueEvents (h : b.Orderly up) (n : Nat) : (b.issueEvents n).Orderly up := by
  induction n generalizing b with
  | zero => exact h
  | succ n ih =>
    rw [Body.issueEvents]
    split
    · next r e es configured pending =>
      split
      · refine ih (Body.Orderly.aside (b := { b with event := some (r.write .event e.bytes).1, events := es }) ?_ rfl)
        have left : PendingLaw es := h.pending.sublist (pending ▸ List.sublist_cons_self ..)
        refine { h with pending := left, event := fun x written => ?_ }
        cases written
        exact PartRing.write_lawful (h.event r configured) _ _
      · exact h
    · exact h

/-- The admin ring takes another state, with no more records under way beside the table than there is room for. -/
theorem Body.Orderly.setAdmin (h : b.Orderly up) {r : HostRing} (lawful : r.lawful)
    (room : r.underway + b.table.length ≤ 8) : Body.Orderly up { b with admin := some r } :=
  { h with admin := fun x configured => by cases configured; exact lawful, requests := room }

theorem Body.Orderly.adminRoom (h : b.Orderly up) {r : HostRing} (configured : b.admin = some r) :
    r.underway + b.table.length ≤ 8 := by
  have requests := h.requests
  rwa [configured] at requests

theorem Body.Orderly.fetchAdmin (h : b.Orderly up) (env : Env) (n : Nat) : (b.fetchAdmin env n).Orderly up := by
  induction n generalizing b with
  | zero => exact h
  | succ n ih =>
    rw [Body.fetchAdmin]
    split
    · next r configured =>
      split
      · next may =>
        refine ih (h.setAdmin (HostRing.fetch_lawful (h.admin r configured)) ?_)
        rw [HostRing.fetch_underway]
        have room := HostRing.underway_of_mayFetch may.2
        omega
      · exact h
    · exact h

theorem Body.Orderly.notifyPart (h : b.Orderly up) {ring : Nat} {index : BitVec 16} {arm : Bool} {r : PartRing}
    {store : PartRing → Body → Body} (lawful : r.lawful) (stores : ∀ r : PartRing, r.lawful → (store r b).Orderly up) :
    (b.notifyPart ring index arm r store).Orderly up := by
  unfold Body.notifyPart
  split
  · next acts => exact (stores _ (PartRing.consume_lawful lawful acts.1 arm)).aside rfl
  · exact h.raise _ _

theorem Body.Orderly.notify (h : b.Orderly up) (running : Bool) (ring : Nat) (index : BitVec 16) (arm : Bool) :
    (b.notify running ring index arm).Orderly up := by
  have bad : (b.badNotify ring index).Orderly up := h.raise _ _
  unfold Body.notify
  split
  · exact h
  split
  · split
    · next r configured =>
      split
      · next below =>
        refine h.setAdmin (HostRing.post_lawful (h.admin r configured) below) ?_
        exact (Nat.add_le_add_right (HostRing.post_underway_le ..) _).trans (h.adminRoom configured)
      · exact bad
    · exact bad
  split
  · dsimp only
    split
    · next st opened =>
      have fits : st.Fits := h.streams _ st opened
      split
      · next below => exact h.put (fits.withRing (HostRing.post_lawful fits.ring below) (HostRing.post_underway_le ..))
      · exact bad
    · exact bad
  split
  · dsimp only
    split
    · next cr configured =>
      exact h.notifyPart (h.completion _ cr configured) fun r lawful =>
        h.setCompletion lawful cr.waiting ⟨ring - 17, by omega⟩
    · exact bad
  split
  · split
    · next r configured =>
      refine h.notifyPart (h.event r configured) fun r' lawful => { h with event := fun x stored => ?_ }
      cases stored
      exact lawful
    · exact bad
  · exact bad

/-! ### The transmit lane -/

theorem Body.Orderly.runTurns (h : b.Orderly true) (n : Nat) : (b.runTurns n).Orderly true := by
  induction n generalizing b with
  | zero => exact h
  | succ n ih =>
    have moved : ∀ turn budget lane, Body.Orderly true { b with lt := { b.lt with
        turn := turn, budget := budget, lane := lane } } := fun _ _ _ =>
      h.transfers (LinkTransfer.lawful_up h.transfer.notices)
    rw [Body.runTurns]
    split
    · dsimp only
      split
      · split
        · exact moved _ _ _
        · split
          · exact ih ((moved _ _ _).raise _ _)
          · exact ih (moved _ _ _)
      · exact ih (moved _ _ _)
    · exact h

theorem Body.Orderly.scan (h : b.Orderly true) : b.scan.Orderly true := by
  unfold Body.scan
  split
  · next i _ =>
    split
    · next opened =>
      split
      · next head =>
        have sent := h.change opened (Stream.listsNoMore_sendHead head)
        exact sent.transfers (LinkTransfer.lawful_up sent.transfer.notices)
      · exact h
    · exact h
  · exact h

theorem Body.Orderly.noticeSent (h : b.Orderly up) (i : StreamId) : (b.noticeSent i).Orderly up := by
  refine h.transfers ⟨?_, fun down => ?_⟩
  · rw [map_notices_stream fun n => by split <;> rfl]
    exact h.transfer.notices
  · obtain ⟨budget, turn, notices, markerDue⟩ := h.transfer.down down
    exact ⟨budget, turn, by rw [notices]; rfl, markerDue⟩

theorem Body.Orderly.startDue (h : b.Orderly up) (f : ControlFrame) (rest : List ControlFrame) :
    (b.startDue f rest).Orderly up := by
  have started : Body.Orderly up { b with lt := { b.lt with due := rest, lane := some (.control f) } } := h.aside rfl
  unfold Body.startDue
  dsimp only
  split
  · exact started.noticeSent _
  · exact started

theorem Body.Orderly.startFrame {env : Env} (h : b.Orderly env.up) : (b.startFrame env).Orderly env.up := by
  unfold Body.startFrame
  split
  · exact h
  split
  · exact h.transfers ⟨h.transfer.notices, fun down => by simp [h.transfer.down down]⟩
  split
  · exact h.startDue _ _
  split
  · next is_up =>
    rw [is_up] at h ⊢
    dsimp only
    split
    · exact (h.runTurns 17).scan
    · exact h.runTurns 17
  · exact h

/-- All that follows from an event keeps the laws. -/
theorem Body.Orderly.settle {env : Env} (h : b.Orderly env.up) : (b.settle env).Orderly env.up :=
  Body.settle_invariant (P := fun b => b.Orderly env.up) (fun _ _ _ _ _ h opened acts => h.act opened acts)
    (fun _ src h => h.joinWaiting src) (fun _ n c h => h.issueCompletions n c) (fun _ h => h.aside rfl)
    (fun _ h => h.startFrame) (fun _ n h => h.issueEvents n) (fun _ n h => h.fetchAdmin env n) b h

/-! ### The loss of the link and the start of a cycle -/

theorem Body.Orderly.loseLinkOne (h : b.Orderly up) (i : StreamId) : (b.loseLinkOne i).Orderly up :=
  (h.halt i .linkLost).modify fun st => st.listsNoMore_abandon.trans (.aside rfl)

theorem Body.Orderly.loseLinkAfter {first : Body → StreamId → Body} (h : b.Orderly up)
    (keeps : ∀ b i, b.Orderly up → (first b i).Orderly up) : (b.loseLinkAfter first).Orderly up :=
  h.foldl (fun b i h => (keeps b i h).loseLinkOne i) _

theorem Body.Orderly.advanceAnswer (h : b.Orderly true) (i : StreamId) : (b.advanceAnswer true i).Orderly true := by
  cases opened : b.stream i with
  | none => rwa [Body.advanceAnswer_closed true opened]
  | some st =>
    have advanced := h.change opened st.listsNoMore_advanceAnswer
    rw [Body.advanceAnswer_open true opened]
    split
    · exact (advanced.haltOrAbandon i .noAnswer).resynchronise true i
    · exact advanced

theorem Body.Orderly.advanceNotices (h : b.Orderly true) : b.advanceNotices.Orderly true := by
  refine h.transfers (LinkTransfer.lawful_up ?_)
  rw [map_notices_stream Notice.advance_stream]
  exact h.transfer.notices

theorem Body.Orderly.examine (h : b.Orderly up) (peer : List Byte) (reservable : Nat) :
    (b.examine peer reservable).Orderly up := by
  rw [Body.examine_eq]
  refine Body.examinedBelow_invariant (P := fun acc => acc.1.Orderly up) h 16 (fun i acc _ h => ?_) le_rfl
  cases opened : acc.1.stream i with
  | none => rwa [Body.examineOne_none opened]
  | some st =>
    rw [Body.examineOne_some opened]
    split
    · exact h.change opened (.aside rfl)
    split
    · exact (h.change opened (st.listsNoMore_beginHalt _)).raise _ _
    · exact h

/-- Where the link is called UP the notice queue is empty, and what else Link Transfer holds is as it was. -/
theorem Body.Orderly.calledUp (h : b.Orderly up) : b.calledUp.Orderly true := by
  have called := ((h.dropDue fun f => f.isHello || f.isChunk).raise none (.linkState .up none)).modifyAll
    (f := Stream.resetSeq) fun _ => .aside rfl
  exact called.transfers (LinkTransfer.lawful_up List.nodup_nil)

theorem Body.Orderly.abortAll (h : b.Orderly up) : b.abortAll.Orderly up := by
  refine h.modifyAll fun st => ?_
  split
  · exact .refl st
  · exact st.listsNoMore_beginAbort

/-! ### What arrives on the link -/

theorem Body.Orderly.undoClaim (h : b.Orderly up) : b.undoClaim.Orderly up := by
  unfold Body.undoClaim
  split
  · dsimp only
    split
    · refine Body.Orderly.withRx ?_ none
      exact h.modify fun _ => .aside rfl
    · exact h.withRx none
  · exact h

theorem Body.Orderly.headerArrives (h : b.Orderly up) (isUp : Bool) (d : DataHeader) :
    (b.headerArrives isUp d).Orderly up := by
  have free := h.undoClaim
  unfold Body.headerArrives
  dsimp only
  split
  · next opened =>
    split
    · split
      · refine Body.Orderly.withRx ?_ _
        exact free.change opened (.aside rfl)
      · exact free.withRx _
    · exact free.withRx _
  · exact free.withRx _

theorem Body.Orderly.payloadArrives (h : b.Orderly up) (isUp : Bool) (bytes : List Byte) :
    (b.payloadArrives isUp bytes).Orderly up := by
  unfold Body.payloadArrives
  split
  · dsimp only
    split
    · split
      · refine Body.Orderly.withRx ?_ _
        exact h.modify fun _ => .aside rfl
      · exact h.withRx _
    · exact h.withRx _
  · exact h

theorem Body.Orderly.bestEffortEnds (h : b.Orderly up) (cycle : CycleNum) (r : Reception) (data : List Byte) :
    (b.bestEffortEnds cycle r data).Orderly up := by
  unfold Body.bestEffortEnds
  dsimp only
  split
  · exact h.undoClaim.addDue _
  · exact h.undoClaim.addDue _
  · exact h.undoClaim.addDue _
  · split
    · refine Body.Orderly.addDue ?_ _
      exact (h.withRx none).modify fun _ => .aside rfl
    · exact h

theorem Body.Orderly.scheduledEnds (h : b.Orderly up) (cycle : CycleNum) (r : Reception) (data : List Byte) :
    (b.scheduledEnds cycle r data).Orderly up := by
  have missed := (h.undoClaim.modify (i := r.header.stream) Stream.listsNoMore_setGap).raise (some r.header.stream)
    (.scheduleMiss true)
  unfold Body.scheduledEnds
  dsimp only
  split
  · exact h.undoClaim
  · next opened =>
    split
    · exact h.undoClaim
    split
    · split
      · exact (h.withRx none).change opened (.aside rfl)
      · exact missed
    · exact missed

theorem Body.Orderly.goneActs (h : b.Orderly up) (i : StreamId) : (b.goneActs i).Orderly up := by
  unfold Body.goneActs
  repeat' split
  · exact h.haltOrAbandon i .peerClosed
  · exact h
  · exact h

theorem Body.Orderly.noticeActs (h : b.Orderly up) (i : StreamId) (kind : Byte) : (b.noticeActs i kind).Orderly up := by
  unfold Body.noticeActs
  split
  · split
    · refine Body.Orderly.modify ?_ fun _ => .aside rfl
      split
      · exact h.haltOrAbandon i .peerClosed
      · exact h
    · exact h
  split
  · exact h.haltOrAbandon i .peerClosed
  · exact h

theorem Body.Orderly.noticeAcked (h : b.Orderly up) (i : StreamId) (kind : Byte) :
    (b.noticeAcked i kind).Orderly up := by
  unfold Body.noticeAcked
  split
  · refine h.transfers ⟨h.transfer.notices.sublist (List.filter_sublist.map _), fun down => ?_⟩
    obtain ⟨budget, turn, notices, markerDue⟩ := h.transfer.down down
    exact ⟨budget, turn, by simp [notices], markerDue⟩
  · exact h

/-! ### The ends of transfers -/

theorem Body.Orderly.recordFetchEnds (h : b.Orderly up) (i : StreamId) (slot : Nat) (result : Option (BitVec 256)) :
    (b.recordFetchEnds i slot result).Orderly up := by
  unfold Body.recordFetchEnds
  split
  · next st opened =>
    have fits := h.streams i st opened
    split
    · split
      · exact h.put (fits.withRing (HostRing.fetchReturned_lawful _ _ fits.ring)
          (HostRing.fetchReturned_underway_le ..))
      · exact (h.put (fits.dropFetch slot)).halt i .fetchError
    · exact h
  · exact h

theorem Body.Orderly.sendReadEnds (h : b.Orderly up) (i : StreamId) (slot : Nat) (result : Option (List Byte)) :
    (b.sendReadEnds i slot result).Orderly up := by
  unfold Body.sendReadEnds
  split
  · next opened =>
    split
    · split
      · split
        · exact h.change opened (.aside rfl)
        · refine Body.Orderly.halt ?_ i .memoryError
          exact h.change opened (.aside rfl)
      · exact h
    · exact h
  · exact h

theorem Body.Orderly.receiveWriteEnds (h : b.Orderly up) (i : StreamId) (ok : Bool) :
    (b.receiveWriteEnds i ok).Orderly up := by
  unfold Body.receiveWriteEnds
  split
  · next opened =>
    split
    · dsimp only
      split
      · refine h.change opened ?_
        split
        · exact .aside rfl
        · exact .after (Stream.listsNoMore_countWrite _ _) (.aside rfl)
      · refine Body.Orderly.halt ?_ i .memoryError
        exact h.change opened (.aside rfl)
    · exact h
  · exact h

theorem Body.Orderly.ringWriteAccepted (h : b.Orderly up) (kind : RingWriteKind) :
    (b.ringWriteAccepted kind).Orderly up := by
  unfold Body.ringWriteAccepted
  split
  · next src =>
    cases src
    · exact h.modify fun _ => .aside rfl
    · exact h.aside rfl (List.length_filter_le ..)
  · exact h
  · exact h

theorem Body.Orderly.frameEnds (h : b.Orderly up) (cycle : CycleNum) : (b.frameEnds cycle).Orderly up := by
  have freed : Body.Orderly up { b with lt := { b.lt with lane := none } } := h.aside rfl
  unfold Body.frameEnds
  dsimp only
  split
  · exact h
  · split
    · exact freed.completeIf _ _ _
    · exact freed
  · split
    · exact freed.modify fun st => st.listsNoMore_scheduledSent _ cycle
    · exact freed

/-! ### Opening, START and the end of a stop -/

theorem Body.Orderly.openAt (h : b.Orderly up) (i : StreamId) (fits : st.Fits) : (b.openAt up i st).Orderly up := by
  have opened : Body.Orderly up { b with
      blocks := allocate i st.maxLen st.buffers.length b.blocks, streams := b.streams.set i (some st) } :=
    (h.setStream (fun x same => by cases same; exact fits) i).aside rfl
  cases up
  · exact opened
  · exact opened.placeNotice i false

theorem Body.Orderly.unconfigure (h : b.Orderly up) : b.unconfigure.Orderly up where
  pending := ⟨List.nodup_nil, nofun⟩
  transfer := h.transfer.aside rfl
  admin := nofun
  requests := by
    refine Nat.le_trans ?_ h.requests
    exact Nat.add_le_add_right (Nat.zero_le _) _
  completion c cr configured := by simp [Body.unconfigure] at configured
  event := nofun
  streams := h.streams

end

end Sys2Proof.Machine
end

section
/-! SUPPORT. Every command keeps the laws of the pending events, of what Link Transfer holds and of the rings. -/

namespace Sys2Proof.Machine

-- Elaborated in parallel, the proofs of this part wait for one another on threads that pass the check's memory limit.
set_option Elab.async false

open Sys2Proof Host

section

variable {s t : State}

/-! ### What a change of the part keeps -/

theorem State.orderly_of_up (link : s.bp.link = .up) : s.Orderly ↔ s.body.Orderly true := by
  rw [State.Orderly, State.isUp, link]
  rfl

theorem State.orderly_of_not_up (off : s.isUp = false) : s.Orderly ↔ s.body.Orderly false := by
  rw [State.Orderly, off]

theorem State.Orderly.onBody {f : Body → Body} (h : (f s.body).Orderly s.isUp) : (s.onBody f).Orderly := h

/-- The link state stays, and the body changes lawfully. -/
theorem State.Orderly.of_link (body : t.body.Orderly s.isUp) (link : t.bp.link = s.bp.link) : t.Orderly := by
  rw [State.isUp, ← link] at body
  exact body

/-- A change of neither the body nor the link state. -/
theorem State.Orderly.of_body (h : s.Orderly) (same : (t.body, t.bp.link) = (s.body, s.bp.link)) : t.Orderly := by
  simp only [Prod.mk.injEq] at same
  obtain ⟨body, link⟩ := same
  exact .of_link (by rw [body]; exact h) link

theorem State.Orderly.withEngine (h : s.Orderly) (e : CycleEngine) : State.Orderly { s with ce := e } := h.of_body rfl

theorem State.Orderly.addDue (h : s.Orderly) (f : ControlFrame) : (s.onBody (Body.addDue f)).Orderly :=
  .onBody (Body.Orderly.addDue h f)

theorem State.Orderly.raise (h : s.Orderly) (source : Option StreamId) (d : Detail) :
    (s.onBody (Body.raise source d)).Orderly := .onBody (Body.Orderly.raise h source d)

/-! ### Faults, the settling and the end of a stop -/

theorem State.Orderly.enterFault (h : s.Orderly) (code : FaultCode) : (s.enterFault code).Orderly := by
  have cut : Body.Orderly s.isUp { s.body with lt := { s.body.lt with lane := none } } :=
    h.transfers (h.transfer.aside rfl)
  exact cut

theorem State.Orderly.stopEnds (h : s.Orderly) : s.stopEnds.Orderly := by
  have off : Body.Orderly s.isUp s.body.unconfigure := Body.Orderly.unconfigure h
  exact off

theorem State.Orderly.settle (h : s.Orderly) : s.settle.Orderly := by
  have body : (s.body.settle s.env).Orderly s.env.up := Body.Orderly.settle (env := s.env) h
  have settled : (s.onBody (Body.settle s.env)).Orderly := .onBody body
  rcases s.settle_cases with ⟨-, -, same⟩ | ⟨-, same⟩ | ⟨-, same⟩
  · rw [same]
    exact h
  · rw [same]
    exact settled
  · rw [same]
    exact settled.stopEnds

/-- An event keeps the laws if its own effect does outside FAULTED. -/
theorem State.Orderly.event {effect : State → State} (h : s.Orderly) (keeps : s.Orderly → (effect s).Orderly) :
    (s.event effect).Orderly := by
  unfold State.event
  split
  · exact h
  · exact (keeps h).settle

/-! ### Going DOWN -/

/-- The loss of the link clears Link Transfer, whatever the streams do with it (R113, R147). -/
theorem State.Orderly.leaveUpWith {streams : Body → Body} (h : s.body.Orderly true)
    (keeps : ∀ b : Body, b.Orderly true → (streams b).Orderly true) (cause : DownCause) :
    (s.leaveUpWith streams cause).Orderly :=
  (State.orderly_of_not_up rfl).mpr ((keeps _ (h.raise none _)).transfers (LinkTransfer.stop_lawful false _))

theorem State.Orderly.leaveUp (h : s.Orderly) (up : s.bp.link = .up) (cause : DownCause) : (s.leaveUp cause).Orderly :=
  State.Orderly.leaveUpWith ((State.orderly_of_up up).mp h) (fun _ h => h.loseLinkAfter fun _ _ h => h) cause

theorem State.Orderly.bringUpFails (h : s.Orderly) (off : s.isUp = false) (cause : DownCause) (status : Status) :
    (s.bringUpFails cause status).Orderly :=
  (State.orderly_of_not_up rfl).mpr
    (((((State.orderly_of_not_up off).mp h).dropDue _).raise none _).completePending _ status)

theorem State.Orderly.takeDown (h : s.Orderly) (cause : DownCause) (status : Status) :
    (s.takeDown cause status).Orderly := by
  unfold State.takeDown
  split
  · exact h
  · next link => exact h.bringUpFails (by simp [State.isUp, link]) cause status
  · next link => exact h.bringUpFails (by simp [State.isUp, link]) cause status
  · next link => exact h.leaveUp link cause

theorem State.Orderly.takeDownHere (h : s.Orderly) (status : Status) : (s.takeDownHere status).Orderly := by
  have down := h.takeDown .requested status
  unfold State.takeDownHere
  dsimp only
  split
  · exact Body.Orderly.addDue down _
  · exact down

/-! ### Cycles, markers and echoes -/

theorem State.Orderly.startCycle (h : s.Orderly) (up : s.bp.link = .up) (n : CycleNum) : (s.startCycle n).Orderly := by
  have is_up := (State.orderly_of_up up).mp h
  have begun : s.begun.Orderly true := is_up.transfers (LinkTransfer.lawful_up is_up.transfer.notices)
  rw [State.startCycle_eq]
  split
  · exact State.Orderly.leaveUpWith (s := { s with ce := { s.ce with cycle := n }, body := s.begun }) begun
      (fun _ h => h.loseLinkAfter fun _ i h => h.advanceAnswer i) .peerSilent
  · have answered : s.answered.Orderly true := begun.foldl (fun _ i h => h.advanceAnswer i) _
    refine (State.orderly_of_up ?_).mpr ?_
    · exact up
    · exact answered.advanceNotices

theorem State.Orderly.reachUp (h : s.Orderly) (n : CycleNum) : (s.reachUp n).Orderly := by
  rw [State.reachUp_eq]
  refine State.Orderly.startCycle ?_ rfl n
  exact (State.orderly_of_up rfl).mpr (((Body.Orderly.calledUp h).examine _ _).completePending _ .ok)

theorem State.Orderly.markerArrives (h : s.Orderly) (m : CycleNum) : (s.markerArrives m).Orderly := by
  unfold State.markerArrives
  split
  · split
    · exact h
    · exact h
    · split
      · exact (h.addDue _).reachUp m
      · exact h
    · next up =>
      have again : (s.retimed m).Orderly := by
        refine State.Orderly.addDue ?_ _
        exact h.of_body rfl
      split
      · exact h
      · rw [State.markerInUp_eq]
        split
        · exact again.startCycle up m
        · split
          · exact again
          · exact (again.raise none _).startCycle up m
  · exact h

theorem State.Orderly.echoArrives (h : s.Orderly) (m : CycleNum) : (s.echoArrives m).Orderly := by
  unfold State.echoArrives
  split
  · exact h.of_body rfl
  · exact h

theorem State.Orderly.judged (h : s.Orderly) (t misses : Nat) (seen : Option Bool) : (s.judged t misses seen).Orderly :=
  h.withEngine _

theorem State.Orderly.coasts (h : s.Orderly) (t : Nat) : (s.coasts t).Orderly := h.withEngine _

theorem State.Orderly.periodExpires (h : s.Orderly) : s.periodExpires.Orderly := by
  by_cases acts : ∃ t, s.ce.periodEnds = some t ∧ t ≤ s.now ∧ s.ce.role = some .leader ∧ s.bp.link = .up
  · obtain ⟨t, runs, come, leader, up⟩ := acts
    rw [State.periodExpires_due leader up runs come]
    split
    · exact (h.judged t _ _).leaveUp up .peerSilent
    · exact (h.judged t _ _).startCycle up _
  · rw [State.periodExpires_void]
    · exact h
    · by_contra acting
      push Not at acting
      obtain ⟨leader, up, t, runs, come⟩ := acting
      exact acts ⟨t, runs, come, leader, up⟩

theorem State.Orderly.deadlinePasses (h : s.Orderly) : s.deadlinePasses.Orderly := by
  by_cases acts : ∃ t, s.ce.expected = some t ∧ t + s.ce.inForce.grace ≤ s.now ∧ s.ce.role = some .follower ∧
      s.bp.link = .up
  · obtain ⟨t, runs, come, follower, up⟩ := acts
    rw [State.deadlinePasses_due follower up runs come]
    split
    · exact (h.withEngine { s.ce with sync := .lost }).leaveUp up .syncLost
    · exact (h.coasts t).startCycle up _
  · rw [State.deadlinePasses_void]
    · exact h
    · by_contra acting
      push Not at acting
      obtain ⟨follower, up, t, runs, come⟩ := acting
      exact acts ⟨t, runs, come, follower, up⟩

/-! ### Calling and the exchange -/

theorem State.Orderly.helloDue (h : s.Orderly) : s.helloDue.Orderly := by
  unfold State.helloDue
  split
  · exact h
  · exact Body.Orderly.addDue h _

theorem State.Orderly.callPeer (h : s.Orderly) (off : s.isUp = false) (id : Nat) (role : Role) (period : Period)
    (timeout : Nat) : (s.callPeer id role period timeout).Orderly := by
  have down := (State.orderly_of_not_up off).mp h
  unfold State.callPeer
  refine State.Orderly.onBody (Body.Orderly.raise (State.Orderly.helloDue ?_) none _)
  exact (State.orderly_of_not_up rfl).mpr down

theorem State.Orderly.helloExpires (h : s.Orderly) : s.helloExpires.Orderly := by
  unfold State.helloExpires
  split
  · split
    · exact State.Orderly.helloDue (h.of_body rfl)
    · exact h
  · exact h

/-- The bring-up timer runs in CALLING and EXCHANGING alone (R136, R143). -/
theorem State.Orderly.bringUpExpires (h : s.Orderly) (l : LinkLaw s) : s.bringUpExpires.Orderly := by
  unfold State.bringUpExpires
  split
  · next t runs =>
    split
    · have bringing := l.bringUpTimer
      rw [runs] at bringing
      refine h.bringUpFails ?_ .timeout .timeout
      cases link : s.bp.link <;> simp [State.isUp, link, LinkState.bringing] at bringing ⊢
    · exact h
  · exact h

theorem State.Orderly.sendChunk (h : s.Orderly) (k sends : Nat) : (s.sendChunk k sends).Orderly :=
  Body.Orderly.addDue h _

theorem State.Orderly.beginExchange (h : s.Orderly) (off : s.isUp = false) (hello : PeerHello) :
    (s.beginExchange hello).Orderly := by
  have down := (State.orderly_of_not_up off).mp h
  have begun : (s.exchangesBegun hello).Orderly :=
    State.Orderly.sendChunk ((State.orderly_of_not_up rfl).mpr (down.dropDue _)) 0 1
  rw [State.beginExchange_eq]
  split
  · exact Body.Orderly.raise begun none _
  · exact begun

theorem State.Orderly.helloChecked (h : s.Orderly) (off : s.isUp = false) (hello : PeerHello) :
    (s.helloChecked hello).Orderly := by
  unfold State.helloChecked
  repeat' split
  · exact h.bringUpFails off _ _
  · exact h.bringUpFails off _ _
  · exact h.bringUpFails off _ _
  · exact h.beginExchange off hello

theorem State.Orderly.helloArrives (h : s.Orderly) (hello : PeerHello) : (s.helloArrives hello).Orderly := by
  unfold State.helloArrives
  split
  · exact h
  · next link => exact h.helloChecked (by simp [State.isUp, link]) hello
  · next link =>
    split
    · exact h
    · exact h.helloChecked (by simp [State.isUp, link]) hello
  · next up => exact h.leaveUp up .peerDown

theorem State.Orderly.stopHello (h : s.Orderly) : s.stopHello.Orderly := Body.Orderly.dropDue h _

theorem State.Orderly.exchangeDone (h : s.Orderly) : s.exchangeDone.Orderly := by
  unfold State.exchangeDone
  split
  · exact h.reachUp 0
  · exact h

theorem State.Orderly.ackArrives (h : s.Orderly) (number : Byte) : (s.ackArrives number).Orderly := by
  unfold State.ackArrives
  split
  · split
    · split
      · unfold State.chunkAcked
        split
        · exact h.stopHello.sendChunk _ _
        · exact State.Orderly.exchangeDone (h.stopHello.of_body rfl)
      · exact h.stopHello
    · exact h.stopHello
  · exact h

/-- The answer timer runs in EXCHANGING alone (R139). -/
theorem State.Orderly.answerExpires (h : s.Orderly) (l : LinkLaw s) : s.answerExpires.Orderly := by
  unfold State.answerExpires
  split
  · next o outgoing =>
    have exchanging : s.bp.link = .exchanging := by simpa [outgoing] using l.outgoing
    split
    · split
      · split
        · exact h.sendChunk _ _
        · exact h.bringUpFails (by simp [State.isUp, exchanging]) _ _
      · exact h
    · exact h
  · exact h

theorem State.Orderly.chunkMeasured (h : s.Orderly) (off : s.isUp = false) (hello : PeerHello) (x : Incoming)
    (number : Byte) (bytes : List Byte) : (s.chunkMeasured hello x number bytes).Orderly := by
  have failed := h.bringUpFails off .profileFailed .profileFailed
  have acked : ∀ x, State.Orderly ({ s with bp := { s.bp with incoming := some x } }.onBody
      (Body.addDue (.profileAck number))) := fun x => Body.Orderly.addDue h _
  unfold State.chunkMeasured
  dsimp only
  split
  · exact Body.Orderly.addDue h _
  split
  · exact failed
  split
  · unfold State.lastChunk
    split
    · exact (acked _).exchangeDone
    · exact failed
  · exact acked _

theorem State.Orderly.chunkArrives (h : s.Orderly) (number : Byte) (bytes : List Byte) :
    (s.chunkArrives number bytes).Orderly := by
  unfold State.chunkArrives
  split
  · exact h
  · exact h
  · next link =>
    split
    · exact h.stopHello.chunkMeasured (by simp [State.isUp, State.stopHello, link]) _ _ number bytes
    · exact h.stopHello
  · exact Body.Orderly.addDue h _

theorem State.Orderly.farewellArrives (h : s.Orderly) : s.farewellArrives.Orderly := by
  unfold State.farewellArrives
  split
  · exact h
  · exact h
  · next link => exact h.bringUpFails (by simp [State.isUp, link]) _ _
  · next up => exact h.leaveUp up .peerDown

theorem State.Orderly.signalLost (h : s.Orderly) : s.signalLost.Orderly := by
  rw [State.signalLost_eq]
  split
  · exact (h.takeDown .noSignal .aborted).of_body rfl
  · exact h.of_body rfl

/-! ### START, STOP and the host's writes -/

theorem State.Orderly.resetBlocks (s : State) : s.resetBlocks.Orderly where
  pending := ⟨List.nodup_nil, nofun⟩
  transfer := ⟨List.nodup_nil, fun _ => ⟨rfl, rfl, rfl, rfl⟩⟩
  admin := nofun
  requests := Nat.zero_le _
  completion c cr configured := by simp [State.resetBlocks, Body.reset] at configured
  event := nofun
  streams i st opened := by simp [State.resetBlocks, Body.stream, Body.reset] at opened

theorem Body.Orderly.dropRequests {up : Bool} {b : Body} (h : b.Orderly up) : b.dropRequests.Orderly up := by
  unfold Body.dropRequests
  cases configured : b.admin with
  | none =>
    have same : { b with admin := none } = b := by rw [← configured]
    exact same ▸ h
  | some r =>
    refine h.setAdmin (r.discard_lawful (h.admin r configured)) ?_
    exact (Nat.add_le_add_right r.discard_underway_le _).trans (h.adminRoom configured)

theorem State.Orderly.applyStop (h : s.Orderly) : s.applyStop.Orderly := by
  have stopping : State.Orderly { s with fn := .stopping, body := s.body.abortAll } := by
    refine State.Orderly.of_link (s := s) ?_ ?_
    · dsimp only
      exact Body.Orderly.abortAll h
    · rfl
  have down := stopping.takeDownHere .aborted
  have completed := Body.Orderly.completeIf down (fun e => e.work == Work.none) .aborted 0
  exact State.Orderly.onBody completed.dropRequests

theorem State.Orderly.stopCommand (h : s.Orderly) : s.stopCommand.Orderly := by
  unfold State.stopCommand
  split
  · exact h
  · exact h.of_body rfl
  · exact h.applyStop
  · exact h
  · exact h

theorem State.Orderly.startCommand (h : s.Orderly) : s.startCommand.Orderly := by
  unfold State.startCommand
  split
  · split
    · exact h.of_body rfl
    · exact h.enterFault .badControlBlock
  all_goals exact h

/-- What a valid control block says of its sizes (R150). -/
theorem ControlBlock.sizes_of_valid {c : ControlBlock} (valid : c.valid = true) :
    validSize c.adminSize = true ∧ validSize c.eventSize = true ∧
      ∀ k < c.ringCount, ∀ inside : k < c.sizes.length, validSize c.sizes[k] = true := by
  simp only [ControlBlock.valid, Bool.and_eq_true, List.all_eq_true] at valid
  obtain ⟨⟨⟨⟨⟨⟨-, admin⟩, event⟩, sizes⟩, -⟩, -⟩, -⟩ := valid
  exact ⟨admin, event, fun k below inside => sizes _ (List.mem_take_iff_getElem.mpr ⟨k, by omega, rfl⟩)⟩

/-- The rings of a valid control block are empty and lawful (R151). -/
theorem Body.Orderly.configure {up : Bool} {b : Body} (h : b.Orderly up) {bits : BitVec 1024}
    (valid : (ControlBlock.read bits).valid = true) : (b.configure (ControlBlock.read bits)).Orderly up := by
  obtain ⟨admin, event, sizes⟩ := ControlBlock.sizes_of_valid valid
  have table : b.table.length ≤ 8 := (Nat.le_add_left ..).trans h.requests
  refine { h with
    admin := fun r fresh => ?_, requests := ?_, completion := fun k cr fresh => ?_, event := fun r fresh => ?_ }
  · cases fresh
    exact HostRing.fresh_lawful admin
  · exact (Nat.zero_add _).trans_le table
  · obtain ⟨below, rfl⟩ : k.val < (ControlBlock.read bits).ringCount ∧ _ = cr := by
      simpa [Body.configure] using fresh
    refine PartRing.fresh_lawful ?_ _ _ _
    have inside : k.val < (ControlBlock.read bits).sizes.length := k.isLt
    rw [List.getElem?_eq_getElem inside]
    exact sizes k below inside
  · cases fresh
    exact PartRing.fresh_lawful event _ _ _

theorem State.Orderly.controlBlockRead (h : s.Orderly) (result : Option (BitVec 1024)) :
    (s.controlBlockRead result).Orderly := by
  unfold State.controlBlockRead
  split
  · split
    · dsimp only
      split
      · next valid =>
        have started : State.Orderly { s with
          fn := .running, heldStop := false, body := s.body.configure (ControlBlock.read _) } :=
          Body.Orderly.configure h valid
        split
        · exact started.applyStop
        · exact started
      · exact h.enterFault .badControlBlock
    · exact h.enterFault .badControlBlock
  · exact h

theorem State.Orderly.notifyWrite (h : s.Orderly) (value : Word) : (s.notifyWrite value).Orderly := by
  unfold State.notifyWrite
  split
  · exact Body.Orderly.notify h _ _ _ _
  · exact h

theorem State.Orderly.registerWrite (h : s.Orderly) (offset value : Word) : (s.registerWrite offset value).Orderly := by
  unfold State.registerWrite
  split
  · exact h.of_body rfl
  split
  · exact h.of_body rfl
  split
  · unfold State.functionWrite
    repeat' split
    · exact h.event State.Orderly.startCommand
    · exact h.event State.Orderly.stopCommand
    · exact State.Orderly.resetBlocks s
    · exact h
  split
  · exact h.event fun h => h.notifyWrite value
  · exact h

/-! ### Requests -/

theorem State.Orderly.finish (h : s.Orderly) (id : Nat) (status : Status) (result : Nat) :
    (s.finish id status result).Orderly := Body.Orderly.completeIf h _ status result

theorem State.Orderly.setWork (h : s.Orderly) (id : Nat) (w : Work) : (s.onBody (Body.setWork id w)).Orderly :=
  Body.Orderly.setWork h id w

/-- A stream that is opened has a ring of a valid size (R4, R5). -/
theorem State.validSize_of_opens {i : StreamId} {p : OpenParams} (accepted : s.openRefusal i p = none) :
    validSize p.size.toNat = true := by
  unfold State.openRefusal at accepted
  dsimp only at accepted
  split at accepted <;> [cases accepted; skip]
  split at accepted <;> [cases accepted; rename_i inRange]
  simp only [openInRange, Bool.not_eq_true', Bool.not_eq_false, Bool.and_eq_true] at inRange
  obtain ⟨⟨-, size⟩, -⟩ := inRange
  exact size

theorem State.Orderly.openRequest (h : s.Orderly) (id : Nat) (i : StreamId) (p : OpenParams) :
    (s.openRequest id i p).Orderly := by
  unfold State.openRequest
  split
  · exact h.finish _ _ _
  · next accepted =>
    refine State.Orderly.finish ?_ id .ok 0
    exact Body.Orderly.openAt h i (Stream.opened_fits (State.validSize_of_opens accepted) s.isUp)

theorem State.Orderly.closeRequest (h : s.Orderly) (id : Nat) (i : StreamId) : (s.closeRequest id i).Orderly := by
  unfold State.closeRequest
  split
  · next opened =>
    split
    · exact Body.Orderly.change h opened (.aside rfl)
    · exact h.finish _ _ _
  · exact h.finish _ _ _

theorem State.Orderly.abortRequest (h : s.Orderly) (id : Nat) (i : StreamId) : (s.abortRequest id i).Orderly := by
  unfold State.abortRequest
  split
  · next st opened =>
    have aborting := Body.Orderly.change h opened st.listsNoMore_beginAbort
    exact State.Orderly.onBody ((aborting.completeIf _ .overtaken 0).completeIf _ .overtaken 0)
  · exact h.finish _ _ _

theorem State.Orderly.flushRequest (h : s.Orderly) (id : Nat) (i : StreamId) : (s.flushRequest id i).Orderly := by
  unfold State.flushRequest
  split
  · next st opened =>
    split
    · exact Body.Orderly.change h opened st.listsNoMore_beginFlush
    · exact h.finish _ _ _
  · exact h.finish _ _ _

theorem State.Orderly.resumeRequest (h : s.Orderly) (id : Nat) (i : StreamId) : (s.resumeRequest id i).Orderly := by
  unfold State.resumeRequest
  split
  · exact h.finish _ _ _
  · refine State.Orderly.finish (State.Orderly.onBody ?_) id .ok 0
    exact Body.Orderly.modify h fun _ => .aside rfl

theorem State.Orderly.watchRequest (h : s.Orderly) (id : Nat) (i : StreamId) (mode dir measure : Byte)
    (threshold : Word) : (s.watchRequest id i mode dir measure threshold).Orderly := by
  unfold State.watchRequest
  split
  · next st opened =>
    have watched : ∀ w, (s.body.put i st { st with watch := w }).Orderly s.isUp := fun w =>
      Body.Orderly.change h opened (.aside rfl)
    split
    · exact State.Orderly.finish (State.Orderly.onBody (watched none)) id .ok 0
    split
    · split
      · refine State.Orderly.finish (State.Orderly.onBody ?_) id .ok _
        dsimp only
        split
        · exact (watched _).raise _ _
        · exact watched _
      · exact h.finish _ _ _
    · exact h.finish _ _ _
  · exact h.finish _ _ _

theorem State.Orderly.carryOutStream (h : s.Orderly) (id : Nat) (i : StreamId) (r : AdminRecord) :
    (s.carryOutStream id i r).Orderly := by
  unfold State.carryOutStream
  repeat' split
  · exact h.openRequest id i _
  · exact h.closeRequest id i
  · exact h.abortRequest id i
  · exact h.flushRequest id i
  · exact h.resumeRequest id i
  · exact h.watchRequest id i _ _ _ _
  · unfold State.queryStreamRequest
    split
    · exact h.finish _ _ _
    · exact h.setWork _ _

theorem State.Orderly.carryOutLink (h : s.Orderly) (id : Nat) (r : AdminRecord) : (s.carryOutLink id r).Orderly := by
  unfold State.carryOutLink
  split
  · unfold State.linkUpRequest
    split
    · split
      · next down => exact h.callPeer (by simp [State.isUp, down]) _ _ _ _
      · exact h.finish _ _ _
    · exact h.finish _ _ _
  split
  · have down := h.takeDownHere .overtaken
    unfold State.linkDownRequest
    dsimp only
    split
    · exact down
    · exact down.finish _ _ _
  split
  · unfold State.loadProfileRequest
    repeat' split
    · exact h.finish _ _ _
    · exact h.finish _ _ _
    · exact h.setWork _ _
  split
  · unfold State.readPeerRequest
    repeat' split
    · exact h.finish _ _ _
    · exact h.finish _ _ _
    · exact h.setWork _ _
    · exact h.finish _ _ _
  · unfold State.queryLinkRequest
    split
    · exact h.finish _ _ _
    · exact h.setWork _ _

/-- A request joins the table where there is room for it (R155). -/
theorem Body.Orderly.join {up : Bool} {b : Body} (h : b.Orderly up) (e : Entry) (n : Nat)
    (room : (b.admin.map HostRing.underway).getD 0 + b.table.length < 8) :
    Body.Orderly up { b with table := b.table ++ [e], nextId := n } := by
  refine { h with requests := ?_ }
  rw [List.length_append]
  exact room

theorem State.Orderly.takeRequest (h : s.Orderly) (position : Nat) (r : AdminRecord)
    (room : (s.body.admin.map HostRing.underway).getD 0 + s.body.table.length < 8) :
    (s.takeRequest position r).Orderly := by
  have joined : ∀ e n, (s.onBody fun b => { b with table := b.table ++ [e], nextId := n }).Orderly :=
    fun e n => Body.Orderly.join h e n room
  unfold State.takeRequest
  dsimp only
  split
  · exact (joined _ _).finish _ _ _
  split
  · split
    · exact (joined _ _).carryOutStream _ _ r
    · exact joined _ _
  · exact (joined _ _).carryOutLink _ r

/-- A record that is handed on makes the room its request takes in the table (R157). -/
theorem State.Orderly.handOnRequests (h : s.Orderly) (n : Nat) : (s.handOnRequests n).Orderly := by
  induction n generalizing s with
  | zero => exact h
  | succ n ih =>
    rw [State.handOnRequests]
    split
    · next ring configured =>
      split
      · next bits moved next =>
        have fewer := HostRing.next_underway_lt next
        have room := Body.Orderly.adminRoom h configured
        have handed : (s.onBody fun b => { b with admin := some moved }).Orderly :=
          Body.Orderly.setAdmin h (HostRing.next_lawful (h.admin ring configured) next) (by omega)
        refine ih (State.Orderly.onBody (Body.Orderly.runStreams (env := State.env _) ?_))
        refine handed.takeRequest _ _ ?_
        show moved.underway + s.body.table.length < 8
        omega
      · exact h
    · exact h

theorem State.Orderly.adminFetchEnds (h : s.Orderly) (slot : Nat) (result : Option (BitVec 256)) :
    (s.adminFetchEnds slot result).Orderly := by
  unfold State.adminFetchEnds
  split
  · next ring configured =>
    have lawful := h.admin ring configured
    have room := Body.Orderly.adminRoom h configured
    have dropped : (s.onBody fun b =>
        { b with admin := some { ring with fetches := ring.fetches.eraseIdx slot } }).Orderly := by
      refine Body.Orderly.setAdmin (r := { ring with fetches := _ }) h lawful ?_
      exact (Nat.add_le_add_right (ring.eraseFetch_underway_le slot) _).trans room
    split
    · cases s.fn <;> cases result
      case running.some bits =>
        refine State.Orderly.handOnRequests ?_ 8
        refine Body.Orderly.setAdmin h (HostRing.fetchReturned_lawful slot bits lawful) ?_
        exact (Nat.add_le_add_right (ring.fetchReturned_underway_le slot bits) _).trans room
      case running.none => exact h.enterFault .adminFetch
      all_goals exact dropped
    · exact h
  · exact h

theorem State.Orderly.requestArrives (h : s.Orderly) (r : AdminRecord) : (s.requestArrives r).Orderly := by
  unfold State.requestArrives
  repeat' split
  · exact h.adminFetchEnds _ _
  · exact h
  · exact h

/-! ### The ends of memory transfers -/

theorem State.Orderly.ringWriteEnds (h : s.Orderly) (p : RingWrite → Bool) (ok : Bool) :
    (s.ringWriteEnds p ok).Orderly := by
  unfold State.ringWriteEnds
  repeat' split
  · refine State.Orderly.onBody (Body.Orderly.ringWriteAccepted ?_ _)
    exact Body.Orderly.aside h rfl
  · exact h.enterFault .postWrite
  · exact h

theorem State.Orderly.profileReadEnds (h : s.Orderly) (id : Nat) (result : Option (List Byte)) :
    (s.profileReadEnds id result).Orderly := by
  unfold State.profileReadEnds
  split
  · split
    · exact h.finish _ _ _
    split
    · exact h.finish _ _ _
    · dsimp only
      split
      · exact h.finish _ _ _
      · exact State.Orderly.finish (h.of_body rfl) _ _ _
  · exact h

theorem State.Orderly.writesEnd (h : s.Orderly) (id : Nat) (ok : Bool) (result : Nat) :
    (s.writesEnd id ok result).Orderly := by
  unfold State.writesEnd
  repeat' split
  all_goals exact h.finish _ _ _

/-! ### Frames that arrive -/

theorem State.Orderly.hear {effect : State → State} (h : s.Orderly) (keeps : s.Orderly → (effect s).Orderly) :
    (s.hear effect).Orderly := by
  unfold State.hear
  split
  · exact keeps h
  · exact h

theorem State.Orderly.dataEnds (h : s.Orderly) (cls : StreamClass) (rest : List Byte)
    {decision : Reception → List Byte → Body → Body}
    (keeps : ∀ r data (b : Body), b.Orderly s.isUp → (decision r data b).Orderly s.isUp) :
    (s.dataEnds cls rest decision).Orderly := by
  unfold State.dataEnds
  repeat' split
  · exact keeps _ _ _ h
  · exact Body.Orderly.undoClaim h
  · exact h
  · exact h

end

/-! ### Every command -/

/-- Every command keeps the laws of the events, of Link Transfer and of the rings; two timers need it that they run in
their link states alone. -/
theorem exec_keeps_orderly {c : Instr} {s t : State} (l : LinkLaw s) (h : s.Orderly) (run : exec c s = .next t) :
    t.Orderly := by
  have event : ∀ {effect : State → State}, (s.Orderly → (effect s).Orderly) →
      (.next (s.event effect) : Outcome State Fault Refusal) = .next t → t.Orderly :=
    fun keeps same => Outcome.next.inj same ▸ h.event keeps
  have onBody : ∀ {effect : Body → Body}, (∀ b : Body, b.Orderly s.isUp → (effect b).Orderly s.isUp) →
      (.next (s.event (State.onBody effect)) : Outcome State Fault Refusal) = .next t → t.Orderly :=
    fun keeps => event fun h => keeps s.body h
  have request : ∀ {r : AdminRecord},
      (.next (s.event (State.requestArrives r)) : Outcome State Fault Refusal) = .next t → t.Orderly :=
    event fun h => h.requestArrives _
  have hear : ∀ {effect : State → State}, (s.Orderly → (effect s).Orderly) →
      (.next (s.event (State.hear effect)) : Outcome State Fault Refusal) = .next t → t.Orderly :=
    fun keeps => event fun h => h.hear keeps
  have hearUp : ∀ {effect : Body → Body}, (∀ b : Body, b.Orderly s.isUp → (effect b).Orderly s.isUp) →
      (.next (s.event (State.hearUp effect)) : Outcome State Fault Refusal) = .next t → t.Orderly := by
    refine fun keeps => hear fun h => ?_
    split
    · exact keeps s.body h
    · exact h
  cases c with
  | powerOnReset => exact Outcome.next.inj run ▸ (State.Orderly.resetBlocks s).of_body rfl
  | reset => exact Outcome.next.inj run ▸ State.Orderly.resetBlocks s
  | start => exact event State.Orderly.startCommand run
  | stop => exact event State.Orderly.stopCommand run
  | notify value => exact event (fun h => h.notifyWrite value) run
  | registerWrite offset value => exact Outcome.next.inj run ▸ h.registerWrite offset value
  | controlBlockReadEnd result => exact event (fun h => h.controlBlockRead result) run
  | adminFetchReturn slot result => exact event (fun h => h.adminFetchEnds slot result) run
  | workRecordFetchReturn i slot result => exact onBody (fun _ h => h.recordFetchEnds i slot result) run
  | sendBufferReadReturn i slot result => exact onBody (fun _ h => h.sendReadEnds i slot result) run
  | receiveBufferWriteEnd i ok => exact onBody (fun _ h => h.receiveWriteEnds i ok) run
  | completionWriteEnd ok => exact event (fun h => h.ringWriteEnds _ ok) run
  | eventWriteEnd ok => exact event (fun h => h.ringWriteEnds _ ok) run
  | interruptMessageWriteEnd ok => exact event (fun h => h.ringWriteEnds _ ok) run
  | loadProfileReadEnd entry result => exact event (fun h => h.profileReadEnds entry result) run
  | readPeerProfileWritesEnd entry ok =>
    refine event (fun h => ?_) run
    split
    · exact h.writesEnd entry ok _
    · exact h
  | queryStreamWritesEnd entry ok =>
    refine event (fun h => ?_) run
    split
    · exact h.writesEnd entry ok _
    · exact h
  | queryLinkWritesEnd entry ok =>
    refine event (fun h => ?_) run
    split
    · exact h.writesEnd entry ok _
    · exact h
  | openStream tag stream params => exact request run
  | closeStream tag stream => exact request run
  | abortStream tag stream => exact request run
  | flushStream tag stream => exact request run
  | resumeStream tag stream => exact request run
  | setWatch tag stream mode dir measure threshold => exact request run
  | queryStream tag stream addr => exact request run
  | linkUp tag role period timeout => exact request run
  | linkDown tag => exact request run
  | loadProfile tag addr length => exact request run
  | readPeerProfile tag addr length => exact request run
  | queryLink tag addr => exact request run
  | dataHeaderArrival header =>
    refine hear (fun h => ?_) run
    split
    · exact Body.Orderly.headerArrives h _ _
    · exact h
  | dataArrivalStep bytes => exact hear (fun h => .onBody (Body.Orderly.payloadArrives h _ _)) run
  | dataBestEffortEnd rest => exact event (fun h => h.dataEnds _ rest fun r data _ h => h.bestEffortEnds _ r data) run
  | dataScheduledEnd rest => exact event (fun h => h.dataEnds _ rest fun r data _ h => h.scheduledEnds _ r data) run
  | accept i bit => exact hearUp (fun _ h => h.modify (Stream.listsNoMore_accepted bit _)) run
  | defer i bit => exact hearUp (fun _ h => h.modify (Stream.listsNoMore_deferred bit)) run
  | gone i => exact hearUp (fun _ h => h.goneActs i) run
  | notice i kind => exact hearUp (fun _ h => (h.addDue _).noticeActs i kind) run
  | noticeAck i kind => exact hearUp (fun _ h => h.noticeAcked i kind) run
  | cycleStart number => exact hear (fun h => h.markerArrives number) run
  | cycleEcho number => exact hear (fun h => h.echoArrives number) run
  | hello role period length check => exact hear (fun h => h.helloArrives _) run
  | profileChunk number bytes => exact hear (fun h => h.chunkArrives number bytes) run
  | profileAck number => exact hear (fun h => h.ackArrives number) run
  | farewell => exact hear State.Orderly.farewellArrives run
  | invalidFrame => exact onBody (fun _ h => h.undoClaim) run
  | transmitFrameEnd => exact onBody (fun _ h => h.frameEnds _) run
  | leaderPeriodExpiry => exact event State.Orderly.periodExpires run
  | followerDeadline => exact event State.Orderly.deadlinePasses run
  | helloTimerExpiry => exact event State.Orderly.helloExpires run
  | answerTimerExpiry => exact event (fun h => h.answerExpires l) run
  | bringUpTimerExpiry => exact event (fun h => h.bringUpExpires l) run
  | lossOfSignal =>
    have fallen : State.Orderly { s with lsig := false } := h.of_body rfl
    exact Outcome.next.inj run ▸ fallen.event State.Orderly.signalLost
  | signalPresent =>
    have risen : State.Orderly { s with lsig := true } := h.of_body rfl
    exact Outcome.next.inj run ▸ risen.event fun h => h.of_body rfl

/-- Every step keeps the laws of the events, of Link Transfer and of the rings. -/
theorem step_keeps_orderly {s t : State} (l : LinkLaw s) (h : s.Orderly) (run : step s = .next t) : t.Orderly := by
  unfold step at run
  split at run
  · next c rest _ =>
    exact exec_keeps_orderly (s := { s with pending := rest }) (l.of_same rfl id) (h.of_body rfl) run
  · cases run
    unfold State.tick
    split
    · exact h
    · exact h.of_body rfl

/-- Settles O58: the laws of the pending events, the notices and the rings are kept by every command. -/
theorem eventNoticeAndRingLawsAreKept : Obligations.EventNoticeAndRingLawsAreKept :=
  fun _ _ link event transfer ring run =>
    (State.orderly_iff _).mp (step_keeps_orderly link ((State.orderly_iff _).mpr ⟨event, transfer, ring⟩) run)

end Sys2Proof.Machine
end

section
/-! SUPPORT. The admin requests as records: what a fetch returns, what holds it back, and what refuses it (R154, R157,
R168, R170, R171). -/

namespace Sys2Proof.Machine

open Sys2Proof Host

/-! ### The record that a fetch returns -/

section

variable {s : State} {ring : HostRing} {slot : Nat} {f : Fetch} {w : BitVec 256}

theorem HostRing.fetchReturned_eq (at_slot : ring.fetches[slot]? = some f) (w : BitVec 256) :
    ring.fetchReturned slot w = { ring with
      fetches := ring.fetches.eraseIdx slot
      returned := if f.dropped then ring.returned else ring.returned ++ [(f.position, w)] } := by
  simp only [HostRing.fetchReturned, at_slot]

/-- A record that a NOTIFY has cut off, or whose turn has not come, lets none be handed on (R154, R157). -/
theorem HostRing.next?_fetchReturned_eq_none (at_slot : ring.fetches[slot]? = some f)
    (early : f.dropped = true ∨ f.position ≠ ring.taken) (unheld : ∀ p ∈ ring.returned, p.1 ≠ ring.taken)
    (w : BitVec 256) : (ring.fetchReturned slot w).next? = none := by
  rw [HostRing.fetchReturned_eq at_slot]
  refine HostRing.next?_eq_none (.inr fun p held => ?_)
  dsimp only at held ⊢
  split at held
  · exact unheld p held
  · next kept =>
    rcases List.mem_append.mp held with before | new
    · exact unheld p before
    · rw [List.mem_singleton.mp new]
      exact early.resolve_left kept

theorem State.adminFetchEnds_running (running : s.fn = .running) (configured : s.body.admin = some ring)
    (inside : slot < ring.fetches.length) (w : BitVec 256) : s.adminFetchEnds slot (some w) =
      State.handOnRequests 8 (s.onBody fun b => { b with admin := some (ring.fetchReturned slot w) }) := by
  simp only [State.adminFetchEnds, configured, if_pos inside, running]

theorem exec_adminFetchReturn_early (running : s.fn = .running) (configured : s.body.admin = some ring)
    (at_slot : ring.fetches[slot]? = some f) (early : f.dropped = true ∨ f.position ≠ ring.taken)
    (unheld : ∀ p ∈ ring.returned, p.1 ≠ ring.taken) (w : BitVec 256) :
    exec (.adminFetchReturn slot (some w)) s =
      .next (State.settle (s.onBody fun b => { b with admin := some (ring.fetchReturned slot w) })) := by
  obtain ⟨inside, -⟩ := List.getElem?_eq_some_iff.mp at_slot
  show Outcome.next (s.event (State.adminFetchEnds slot (some w))) = _
  rw [State.event_eq (FnState.ne_faulted (.inl running)), State.adminFetchEnds_running running configured inside,
    State.handOnRequests_of_next_none rfl (HostRing.next?_fetchReturned_eq_none at_slot early unheld w)]

/-- A request command is the return of the oldest admin fetch that no NOTIFY has cut off. -/
theorem State.event_requestArrives_eq (configured : s.body.admin = some ring)
    (oldest : ring.fetches.findIdx? (fun f => !f.dropped) = some slot) (r : AdminRecord) :
    (.next (s.event (State.requestArrives r)) : Outcome State Fault Refusal) =
      exec (.adminFetchReturn slot (some r.bits)) s := by
  have arrives : s.requestArrives r = s.adminFetchEnds slot (some r.bits) := by
    simp only [State.requestArrives, configured, oldest]
  show _ = Outcome.next (s.event (State.adminFetchEnds slot (some r.bits)))
  rw [State.event, State.event, arrives]

/-- Settles O12: a record is its fields, one out of turn is held or dropped, and a request command is its fetch. -/
theorem requestsAreTheirRecords : Obligations.RequestsAreTheirRecords := by
  refine ⟨AdminRecord.read_bits, AdminRecord.openParams_ofOpen, ?_, ?_⟩
  · intro s ring slot f w running configured at_slot early unheld
    rw [exec_adminFetchReturn_early running configured at_slot early unheld, HostRing.fetchReturned_eq at_slot]
  · intro s ring slot configured oldest tag i x y z p a u v
    have same := State.event_requestArrives_eq configured oldest
    exact ⟨same _, same _, same _, same _, same _, same _, same _, same _, same _, same _, same _, same _⟩

end

/-! ### The refusals of admission -/

/-- What stands from a place on is the field there with what stands above it. -/
theorem extract_rest {n : Nat} (w : BitVec n) (start len rest : Nat) :
    w.extractLsb' (start + len) rest ++ w.extractLsb' start len = w.extractLsb' start (rest + len) := by
  refine BitVec.eq_of_getLsbD_eq fun k below => ?_
  simp only [BitVec.getLsbD_append, BitVec.getLsbD_extractLsb']
  split
  · next low => simp [low, below]
  · next high =>
    have above : start + len + (k - len) = start + k := by omega
    have inside : k - len < rest := by omega
    simp [above, inside, below]

/-- The bytes of a request are all read into its fields (11.4, "Admin request"). -/
theorem AdminRecord.bits_read (w : BitVec 256) : (AdminRecord.read w).bits = w := by
  refine .trans ?_ BitVec.extractLsb'_eq_self
  refine .trans (congrArg (· ++ _) ?_) (extract_rest w 0 8 248)
  refine .trans (congrArg (· ++ _) ?_) (extract_rest w 8 8 240)
  refine .trans (congrArg (· ++ _) ?_) (extract_rest w 16 16 224)
  refine .trans (congrArg (· ++ _) ?_) (extract_rest w 32 8 216)
  refine .trans (congrArg (· ++ _) ?_) (extract_rest w 40 8 208)
  refine .trans (congrArg (· ++ _) ?_) (extract_rest w 48 8 200)
  refine .trans (congrArg (· ++ _) ?_) (extract_rest w 56 8 192)
  refine .trans (congrArg (· ++ _) ?_) (extract_rest w 64 64 128)
  refine .trans (congrArg (· ++ _) ?_) (extract_rest w 128 64 64)
  exact extract_rest w 192 32 32
section

variable {s : State} {ring : HostRing} {r : AdminRecord} {table : List Entry} {status : Status}

/-- A refused request completes at once, and takes no claim (R168). -/
theorem State.event_refusedRequest (h : s.awaitsRequest ring)
    (refused : admissionRefusal r s.body.table = some status) :
    s.event (State.requestArrives r) =
      ((s.withRequest ring r false).finish s.body.nextId status 0).followed := by
  refine State.event_requestArrives h ?_ rfl
  simp only [State.takeRequest, State.onBody_body, refused]
  rfl

/-- The one fetch in flight returns the record that is refused. -/
theorem State.completesWith_of_refusal {w : BitVec 256} (h : s.awaitsRequest ring)
    (refused : admissionRefusal (AdminRecord.read w) s.body.table = some status) :
    s.completesWith (.adminFetchReturn 0 (some w)) ring (AdminRecord.read w) false status 0 := by
  have ⟨_, configured, _, _, fetches, _⟩ := h
  have oldest : ring.fetches.findIdx? (fun f => !f.dropped) = some 0 := by simp [fetches]
  have arrives := State.event_requestArrives_eq configured oldest (AdminRecord.read w)
  rw [AdminRecord.bits_read] at arrives
  rw [State.completesWith, ← arrives, State.event_refusedRequest h refused]

theorem admissionRefusal_of_malformed (malformed : r.code.toNat < 1 ∨ 12 < r.code.toNat ∨ r.reservedZero = false) :
    admissionRefusal r table = some .badRequest := by
  have wf : r.wellFormed = false := by
    simp only [AdminRecord.wellFormed, Bool.and_eq_false_iff, decide_eq_false_iff_not]
    rcases malformed with low | high | used
    · exact .inl (.inl (Nat.not_le.mpr low))
    · exact .inl (.inr (Nat.not_le.mpr high))
    · exact .inr used
  simp [admissionRefusal, wf]

/-- A well-formed request has one of the twelve codes. -/
theorem AdminRecord.code_pos (wf : r.wellFormed = true) : 1 ≤ r.code.toNat := by
  simp only [AdminRecord.wellFormed, Bool.and_eq_true, decide_eq_true_eq] at wf
  obtain ⟨⟨pos, -⟩, -⟩ := wf
  exact pos

theorem admissionRefusal_of_badStream (wf : r.wellFormed = true) (code : r.code.toNat ≤ 7)
    (field : 15 < r.field.toNat) : admissionRefusal r table = some .badStream := by
  have names_stream : isStreamCode r.code = true := by simp [isStreamCode, AdminRecord.code_pos wf, code]
  have none_such : streamOf r.field = none := dif_neg (by omega)
  simp [admissionRefusal, wf, names_stream, none_such]

/-- The claim is not free for a request that does not overtake the one that holds it (R170). -/
theorem claimFree_eq_false {i : StreamId} {code : Byte} {e : Entry} (mem : e ∈ table) (claim : e.claim = true)
    (stream : e.stream = some i) (waits : ¬(code = 3 ∧ (e.code = 2 ∨ e.code = 4))) :
    claimFree i code table = false := by
  have holds : e ∈ table.filter fun e => e.claim && e.stream == some i := by simp [mem, claim, stream]
  unfold claimFree
  split
  · next empty => simp [empty] at holds
  · next alone =>
    rw [alone, List.mem_singleton] at holds
    simpa [holds] using waits
  · rfl

theorem admissionRefusal_of_busy {i : StreamId} (wf : r.wellFormed = true) (code : r.code.toNat ≤ 5)
    (field : i.val = r.field.toNat) (taken : claimFree i r.code table = false) :
    admissionRefusal r table = some .streamBusy := by
  have pos := AdminRecord.code_pos wf
  have names_stream : isStreamCode r.code = true := by simp [isStreamCode, pos]; omega
  have claims : isClaimCode r.code = true := by simp [isClaimCode, pos, code]
  simp [admissionRefusal, wf, names_stream, streamOf_eq_some field, claims, taken]

/-- A link request that finds another, but for a LINK_DOWN that finds a LINK_UP (R171). -/
theorem admissionRefusal_of_linkTaken {e : Entry} (wf : r.wellFormed = true) (code : r.code = 8 ∨ r.code = 9)
    (mem : e ∈ table) (link : e.code = 8 ∨ e.code = 9) (waits : ¬(r.code = 9 ∧ e.code = 8)) :
    admissionRefusal r table = some .wrongState := by
  have no_stream : isStreamCode r.code = false := by rcases code with code | code <;> rw [code] <;> rfl
  have is_link : isLinkCode r.code = true := by simpa [isLinkCode] using code
  have found : isLinkCode e.code = true := by simpa [isLinkCode] using link
  have taken : linkFree r.code table = false := by
    simp only [linkFree, List.all_eq_false]
    exact ⟨e, mem, by simpa [found] using waits⟩
  simp [admissionRefusal, wf, no_stream, is_link, taken]

/-- Settles O13: each clause is a refusal of the admission, and a refused record completes at once. -/
theorem admissionRefusesInOrder : Obligations.AdmissionRefusesInOrder := by
  intro s ring w awaits
  refine ⟨fun malformed => ?_, fun wf code field => ?_, fun wf code i field held => ?_, fun wf code found => ?_⟩
  · exact State.completesWith_of_refusal awaits (admissionRefusal_of_malformed malformed)
  · exact State.completesWith_of_refusal awaits (admissionRefusal_of_badStream wf code field)
  · obtain ⟨e, mem, claim, stream, waits⟩ := held
    exact State.completesWith_of_refusal awaits
      (admissionRefusal_of_busy wf code field (claimFree_eq_false mem claim stream waits))
  · obtain ⟨e, mem, link, waits⟩ := found
    exact State.completesWith_of_refusal awaits (admissionRefusal_of_linkTaken wf code mem link waits)

end

end Sys2Proof.Machine
end

section
/-! SUPPORT. QUERY_STREAM and QUERY_LINK (R172, R173). -/

namespace Sys2Proof.Machine

open Sys2Proof Host

/-! ### The lengths of the snapshots -/

@[simp] theorem Stream.headBytes_length (st : Stream) : st.headBytes.length = 18 := by
  unfold Stream.headBytes
  split <;> simp

@[simp] theorem Stream.sequenceBytes_length (st : Stream) : st.sequenceBytes.length = 3 := by
  unfold Stream.sequenceBytes
  split <;> rfl

theorem Body.streamSnapshot_length (i : StreamId) (b : Body) : (b.streamSnapshot i).length = 64 := by
  unfold Body.streamSnapshot
  split <;> simp [fit_length]

@[simp] theorem PartRing.queryBytes_length (waiting : Nat) (r : PartRing) : (r.queryBytes waiting).length = 8 := by
  simp [PartRing.queryBytes]

@[simp] theorem completionRingBytes_length (o : Option CompletionRing) : (completionRingBytes o).length = 8 := by
  cases o <;> simp [completionRingBytes]

/-- A ring takes its room in the snapshot whether it is configured or not. -/
theorem State.linkSnapshot_length (s : State) : s.linkSnapshot.length = 128 := by
  unfold State.linkSnapshot
  dsimp only
  split
  · split <;> simp [bytesOf, List.length_flatMap]
  · split <;> simp [bytesOf, List.length_flatMap]

/-! ### The commands as events -/

section

variable {s : State} {ring : HostRing} {stream : Byte} {i : StreamId}

theorem exec_queryStream (h : s.awaitsRequest ring) (field : i.val = stream.toNat) (tag : Tag) (addr : Addr) :
    exec (.queryStream tag stream addr) s =
      .next ((s.withRequest ring { AdminRecord.plain 7 stream tag with addr := addr } true).queryStreamRequest
        s.body.nextId i addr).followed :=
  congrArg Outcome.next (State.event_unclaimingRequest h rfl rfl field rfl)

theorem exec_queryLink (h : s.awaitsRequest ring) (tag : Tag) (addr : Addr) :
    exec (.queryLink tag addr) s =
      .next ((s.withRequest ring { AdminRecord.plain 12 0 tag with addr := addr } true).queryLinkRequest
        s.body.nextId addr).followed :=
  congrArg Outcome.next (State.event_linkRequest h rfl rfl nofun)

/-- A snapshot of a stream reads nothing of the admin ring and the table. -/
theorem State.withRequest_streamSnapshot (s : State) (ring : HostRing) (r : AdminRecord) (a : Bool) (i : StreamId) :
    (s.withRequest ring r a).body.streamSnapshot i = s.body.streamSnapshot i := rfl

/-- Settles O20: a query is refused beyond the top of the address space, and else writes the snapshot of its event. -/
theorem queriesTakeSnapshots : Obligations.QueriesTakeSnapshots := by
  intro s ring tag stream i addr awaits field
  refine ⟨fun beyond => ?_, fun inside => ?_, fun beyond => ?_, fun inside => ?_, Body.streamSnapshot_length i s.body,
    s.linkSnapshot_length⟩
  · rw [State.completesWith, exec_queryStream awaits field, State.queryStreamRequest, if_pos (pastTop_iff.mpr beyond)]
  · rw [State.carriesOut, exec_queryStream awaits field, State.queryStreamRequest, not_pastTop_iff.mpr inside,
      State.withRequest_streamSnapshot]
    rfl
  · rw [State.completesWith, exec_queryLink awaits, State.queryLinkRequest, if_pos (pastTop_iff.mpr beyond)]
  · rw [State.carriesOut, exec_queryLink awaits, State.queryLinkRequest, not_pastTop_iff.mpr inside]
    rfl

end

end Sys2Proof.Machine
end

section
/-! SUPPORT. What every operation on the body leaves of its configured rings (R149, R151): none but the end of a stop
takes a ring away. -/

namespace Sys2Proof.Machine

-- Elaborated in parallel, the proofs of this part wait for one another on threads that pass the check's memory limit.
set_option Elab.async false

open Sys2Proof

/-- The admin ring, completion ring 0 and the event ring are configured (R151). -/
def Body.configured (b : Body) : Bool := b.admin.isSome && b.completion[(0 : Fin 4)].isSome && b.event.isSome

section

variable {b : Body} {i : StreamId}

/-! ### Changes beside the rings -/

/-- A change of neither ring. -/
@[simp] theorem Body.configured_beside (b : Body) (streams : Vector (Option Stream) 16)
    (blocks : Vector (Option Owner) 96) (ringWrites : List RingWrite) (table : List Entry) (nextId : Nat)
    (events : List Event) (lt : LinkTransfer) (rx : Option Reception) :
    (Body.mk streams blocks b.admin b.completion b.event ringWrites table nextId events lt rx).configured =
      b.configured := rfl

@[simp] theorem Body.put_configured (i : StreamId) (old new : Stream) (b : Body) :
    (b.put i old new).configured = b.configured := by simp [Body.put_eq]

@[simp] theorem Body.modify_configured (i : StreamId) (f : Stream → Stream) (b : Body) :
    (b.modify i f).configured = b.configured := by
  unfold Body.modify
  split <;> simp

@[simp] theorem Body.modifyAll_configured (f : Stream → Stream) (b : Body) :
    (b.modifyAll f).configured = b.configured := foldl_keeps Body.configured (fun _ _ => Body.modify_configured ..) _ b

@[simp] theorem Body.raise_configured (source : Option StreamId) (d : Detail) (b : Body) :
    (b.raise source d).configured = b.configured := rfl

@[simp] theorem Body.completeIf_configured (p : Entry → Bool) (status : Status) (n : Nat) (b : Body) :
    (b.completeIf p status n).configured = b.configured := rfl

@[simp] theorem Body.completePending_configured (pending : Option Nat) (status : Status) (b : Body) :
    (b.completePending pending status).configured = b.configured := by cases pending <;> rfl

@[simp] theorem Body.addDue_configured (f : ControlFrame) (b : Body) : (b.addDue f).configured = b.configured := rfl

@[simp] theorem Body.dropDue_configured (p : ControlFrame → Bool) (b : Body) :
    (b.dropDue p).configured = b.configured := rfl

@[simp] theorem Body.placeNotice_configured (i : StreamId) (closed : Bool) (b : Body) :
    (b.placeNotice i closed).configured = b.configured := rfl

/-! ### Halts, release and the internal actions of the streams -/

@[simp] theorem Body.halt_configured (i : StreamId) (cause : HaltCause) (b : Body) :
    (b.halt i cause).configured = b.configured := by
  unfold Body.halt
  repeat' split
  all_goals simp

@[simp] theorem Body.haltOrAbandon_configured (i : StreamId) (cause : HaltCause) (b : Body) :
    (b.haltOrAbandon i cause).configured = b.configured := by
  unfold Body.haltOrAbandon
  repeat' split
  all_goals simp

@[simp] theorem Body.resynchronise_configured (up : Bool) (i : StreamId) (b : Body) :
    (b.resynchronise up i).configured = b.configured := by cases up <;> simp [Body.resynchronise]

@[simp] theorem Body.release_configured (up : Bool) (i : StreamId) (st : Stream) (b : Body) :
    (b.release up i st).configured = b.configured := by
  cases up <;> rw [Body.release, Body.completeRelease_eq] <;> rfl

@[simp] theorem Body.act_configured (env : Env) (i : StreamId) (st st' : Stream) (e : Effect) (b : Body) :
    (b.act env i st st' e).configured = b.configured := by
  cases e with
  | released => exact (Body.release_configured ..).trans (Body.put_configured ..)
  | _ => exact Body.put_configured i st st' b

@[simp] theorem Body.runStreams_configured (env : Env) (b : Body) : (b.runStreams env).configured = b.configured :=
  Body.runStreams_invariant (P := fun x => x.configured = b.configured)
    (fun _ _ _ _ _ same _ _ => (Body.act_configured ..).trans same) b rfl

/-! ### The Ring Interface -/

@[simp] theorem Body.setHeldStage_configured (src : Source) (stage : HeldStage) (b : Body) :
    (b.setHeldStage src stage).configured = b.configured := by
  cases src
  · exact Body.modify_configured ..
  · rfl

/-- A completion ring that is configured takes another state. -/
theorem Body.setCompletion_configured {c : Fin 4} {cr : CompletionRing} (held : b.completion[c] = some cr)
    (x : CompletionRing) (ringWrites : List RingWrite) :
    Body.configured { b with completion := b.completion.set c (some x), ringWrites := ringWrites } = b.configured := by
  by_cases first : c.val = 0
  · obtain rfl : c = 0 := Fin.ext first
    simp [Body.configured, held]
  · simp [Body.configured, first]

@[simp] theorem Body.joinWaiting_configured (b : Body) (src : Source) :
    (b.joinWaiting src).configured = b.configured := by
  unfold Body.joinWaiting
  split
  · next held =>
    split
    · exact (Body.setHeldStage_configured ..).trans (Body.setCompletion_configured held _ _)
    · rfl
  · rfl

@[simp] theorem Body.issueCompletions_configured (n : Nat) (c : Fin 4) (b : Body) :
    (b.issueCompletions n c).configured = b.configured := by
  induction n generalizing b with
  | zero => rfl
  | succ n ih =>
    rw [Body.issueCompletions]
    split
    · next held =>
      split
      · split
        · split
          · exact (ih _).trans ((Body.setHeldStage_configured ..).trans (Body.setCompletion_configured held _ _))
          · exact (ih _).trans (Body.setCompletion_configured held _ _)
        · rfl
      · rfl
    · rfl

/-- The event ring that is configured takes another state. -/
theorem Body.setEvent_configured {r : PartRing} (held : b.event = some r) (r' : PartRing) (events : List Event)
    (ringWrites : List RingWrite) :
    Body.configured { b with event := some r', events := events, ringWrites := ringWrites } = b.configured := by
  simp [Body.configured, held]

@[simp] theorem Body.issueEvents_configured (n : Nat) (b : Body) : (b.issueEvents n).configured = b.configured := by
  induction n generalizing b with
  | zero => rfl
  | succ n ih =>
    rw [Body.issueEvents]
    split
    · next held _ =>
      split
      · exact (ih _).trans (Body.setEvent_configured held _ _ _)
      · rfl
    · rfl

/-- The admin ring that is configured takes another state. -/
theorem Body.setAdmin_configured {r : HostRing} (held : b.admin = some r) (r' : HostRing) :
    Body.configured { b with admin := some r' } = b.configured := by
  simp [Body.configured, held]

@[simp] theorem Body.fetchAdmin_configured (env : Env) (n : Nat) (b : Body) :
    (b.fetchAdmin env n).configured = b.configured := by
  induction n generalizing b with
  | zero => rfl
  | succ n ih =>
    rw [Body.fetchAdmin]
    split
    · next held =>
      split
      · exact (ih _).trans (Body.setAdmin_configured held _)
      · rfl
    · rfl

@[simp] theorem Body.badNotify_configured (ring : Nat) (index : BitVec 16) (b : Body) :
    (b.badNotify ring index).configured = b.configured := rfl

theorem Body.notifyPart_configured {ring : Nat} {index : BitVec 16} {arm : Bool} {r : PartRing}
    {store : PartRing → Body → Body} (stores : ∀ r, (store r b).configured = b.configured) :
    (b.notifyPart ring index arm r store).configured = b.configured := by
  unfold Body.notifyPart
  split
  · exact stores _
  · rfl

@[simp] theorem Body.notify_configured (running : Bool) (ring : Nat) (index : BitVec 16) (arm : Bool) (b : Body) :
    (b.notify running ring index arm).configured = b.configured := by
  unfold Body.notify
  split
  · rfl
  split
  · split
    · next held =>
      split
      · exact Body.setAdmin_configured held _
      · rfl
    · rfl
  split
  · dsimp only
    repeat' split
    all_goals simp
  split
  · dsimp only
    split
    · next held => exact Body.notifyPart_configured fun _ => Body.setCompletion_configured held _ _
    · rfl
  split
  · split
    · next held => exact Body.notifyPart_configured fun _ => Body.setEvent_configured held _ _ _
    · rfl
  · rfl

/-! ### The transmit lane -/

@[simp] theorem Body.runTurns_configured (n : Nat) (b : Body) : (b.runTurns n).configured = b.configured := by
  induction n generalizing b with
  | zero => rfl
  | succ n ih =>
    rw [Body.runTurns]
    split
    · dsimp only
      split
      · split
        · rfl
        · split
          · exact ih _
          · exact ih _
      · exact ih _
    · rfl

@[simp] theorem Body.scan_configured (b : Body) : b.scan.configured = b.configured := by
  unfold Body.scan
  repeat' split
  · exact Body.put_configured ..
  all_goals rfl

@[simp] theorem Body.startDue_configured (f : ControlFrame) (rest : List ControlFrame) (b : Body) :
    (b.startDue f rest).configured = b.configured := by cases f <;> rfl

@[simp] theorem Body.startFrame_configured (env : Env) (b : Body) : (b.startFrame env).configured = b.configured := by
  unfold Body.startFrame
  dsimp only
  repeat' split
  all_goals simp

@[simp] theorem Body.frameEnds_configured (cycle : CycleNum) (b : Body) :
    (b.frameEnds cycle).configured = b.configured := by
  unfold Body.frameEnds
  dsimp only
  repeat' split
  all_goals simp

/-- All that follows from an event leaves the rings configured. -/
theorem Body.settle_configured (env : Env) (b : Body) : (b.settle env).configured = b.configured :=
  Body.settle_invariant (P := fun x => x.configured = b.configured)
    (fun _ _ _ _ _ same _ _ => (Body.act_configured ..).trans same)
    (fun x src same => (x.joinWaiting_configured src).trans same)
    (fun x n c same => (x.issueCompletions_configured n c).trans same) (fun _ same => same)
    (fun x same => (x.startFrame_configured env).trans same) (fun x n same => (x.issueEvents_configured n).trans same)
    (fun x n same => (x.fetchAdmin_configured env n).trans same) b rfl

/-! ### The loss of the link, the start of a cycle and STOP -/

@[simp] theorem Body.loseLinkOne_configured (i : StreamId) (b : Body) :
    (b.loseLinkOne i).configured = b.configured := by simp [Body.loseLinkOne]

theorem Body.loseLinkAfter_configured {first : Body → StreamId → Body}
    (same : ∀ b i, (first b i).configured = b.configured) (b : Body) :
    (b.loseLinkAfter first).configured = b.configured :=
  foldl_keeps Body.configured (fun _ _ => (Body.loseLinkOne_configured ..).trans (same _ _)) _ b

@[simp] theorem Body.advanceAnswer_configured (up : Bool) (b : Body) (i : StreamId) :
    (b.advanceAnswer up i).configured = b.configured := by
  unfold Body.advanceAnswer
  dsimp only
  repeat' split
  all_goals simp

@[simp] theorem Body.advanceNotices_configured (b : Body) : b.advanceNotices.configured = b.configured := rfl

@[simp] theorem Body.examine_configured (peer : List Byte) (reservable : Nat) (b : Body) :
    (b.examine peer reservable).configured = b.configured := by
  rw [Body.examine_eq]
  refine Body.examinedBelow_invariant (P := fun acc => acc.1.configured = b.configured) rfl 16
    (fun i acc _ same => ?_) le_rfl
  rw [← same]
  cases opened : acc.1.stream i with
  | none => rw [Body.examineOne_none opened]
  | some st =>
    rw [Body.examineOne_some opened]
    repeat' split
    all_goals simp

@[simp] theorem Body.calledUp_configured (b : Body) : b.calledUp.configured = b.configured := by
  simp [Body.calledUp]

@[simp] theorem Body.abortAll_configured (b : Body) : b.abortAll.configured = b.configured :=
  Body.modifyAll_configured ..

@[simp] theorem Body.dropRequests_configured (b : Body) : b.dropRequests.configured = b.configured := by
  simp [Body.dropRequests, Body.configured]

/-! ### What arrives on the link and from memory -/

@[simp] theorem Body.undoClaim_configured (b : Body) : b.undoClaim.configured = b.configured := by
  unfold Body.undoClaim
  dsimp only
  repeat' split
  all_goals simp

@[simp] theorem Body.headerArrives_configured (up : Bool) (h : DataHeader) (b : Body) :
    (b.headerArrives up h).configured = b.configured := by
  unfold Body.headerArrives
  dsimp only
  repeat' split
  all_goals simp

@[simp] theorem Body.payloadArrives_configured (up : Bool) (bytes : List Byte) (b : Body) :
    (b.payloadArrives up bytes).configured = b.configured := by
  unfold Body.payloadArrives
  dsimp only
  repeat' split
  all_goals simp

@[simp] theorem Body.bestEffortEnds_configured (cycle : CycleNum) (r : Reception) (data : List Byte) (b : Body) :
    (b.bestEffortEnds cycle r data).configured = b.configured := by
  unfold Body.bestEffortEnds
  dsimp only
  repeat' split
  all_goals simp

@[simp] theorem Body.scheduledEnds_configured (cycle : CycleNum) (r : Reception) (data : List Byte) (b : Body) :
    (b.scheduledEnds cycle r data).configured = b.configured := by
  unfold Body.scheduledEnds
  dsimp only
  repeat' split
  all_goals simp

@[simp] theorem Body.goneActs_configured (i : StreamId) (b : Body) : (b.goneActs i).configured = b.configured := by
  unfold Body.goneActs
  repeat' split
  all_goals simp

@[simp] theorem Body.noticeActs_configured (i : StreamId) (kind : Byte) (b : Body) :
    (b.noticeActs i kind).configured = b.configured := by
  unfold Body.noticeActs
  repeat' split
  all_goals simp

@[simp] theorem Body.noticeAcked_configured (i : StreamId) (kind : Byte) (b : Body) :
    (b.noticeAcked i kind).configured = b.configured := by
  unfold Body.noticeAcked
  split <;> rfl

@[simp] theorem Body.recordFetchEnds_configured (i : StreamId) (slot : Nat) (result : Option (BitVec 256)) (b : Body) :
    (b.recordFetchEnds i slot result).configured = b.configured := by
  unfold Body.recordFetchEnds
  repeat' split
  all_goals simp

@[simp] theorem Body.sendReadEnds_configured (i : StreamId) (slot : Nat) (result : Option (List Byte)) (b : Body) :
    (b.sendReadEnds i slot result).configured = b.configured := by
  unfold Body.sendReadEnds
  repeat' split
  all_goals simp

@[simp] theorem Body.receiveWriteEnds_configured (i : StreamId) (ok : Bool) (b : Body) :
    (b.receiveWriteEnds i ok).configured = b.configured := by
  unfold Body.receiveWriteEnds
  dsimp only
  repeat' split
  all_goals simp

@[simp] theorem Body.ringWriteAccepted_configured (kind : RingWriteKind) (b : Body) :
    (b.ringWriteAccepted kind).configured = b.configured := by
  rcases kind with (_ | _) | _ | _
  · exact Body.modify_configured ..
  all_goals rfl

@[simp] theorem Body.openAt_configured (up : Bool) (i : StreamId) (st : Stream) (b : Body) :
    (b.openAt up i st).configured = b.configured := by cases up <;> rfl

end

end Sys2Proof.Machine
end

section
/-! SUPPORT. What follows a STOP (R180, R181): every open stream stays ABORTING until it is released. And what is due
once an event has settled (R112). -/

namespace Sys2Proof.Machine

-- Elaborated in parallel, the proofs of this part wait for one another on threads that pass the check's memory limit.
set_option Elab.async false

open Sys2Proof

/-! ### The state of an ABORTING stream -/

section

variable {st st' : Stream}

theorem Stream.leaveOne_state {i : StreamId} (h : st.leaveOne i = some st') : st'.state = st.state := by
  unfold Stream.leaveOne at h
  repeat' split at h
  all_goals cases h
  all_goals rfl

theorem Stream.placeOne_state (h : st.placeOne = some st') : st'.state = st.state := by
  unfold Stream.placeOne at h
  repeat' split at h
  all_goals cases h
  unfold Stream.placeBytes
  dsimp only
  repeat' split
  all_goals rfl

theorem Stream.windCompletions_state {i : StreamId} (h : st.windCompletions i = some st') : st'.state = st.state := by
  unfold Stream.windCompletions at h
  repeat' split at h
  all_goals cases h
  · unfold Stream.completeHeadOnly
    split <;> rfl
  · unfold Stream.completeNext
    repeat' split
    all_goals rfl
  · rfl

theorem Stream.windAborting_state {i : StreamId} {e : Effect} (h : st.windAborting i = some (st', e)) :
    st'.state = st.state := by
  unfold Stream.windAborting at h
  split at h
  · split at h
    · cases dir : st.dir <;> rw [dir] at h <;> cases h <;> rfl
    · cases h
  · split at h <;> cases h
    rfl
  · obtain ⟨x, completes, same⟩ := Option.map_eq_some_iff.mp h
    cases same
    exact Stream.windCompletions_state completes

theorem Stream.takeHeld_state (h : st.takeHeld = some st') : st'.state = st.state := by
  unfold Stream.takeHeld at h
  repeat' split at h
  all_goals cases h
  all_goals rfl

theorem Stream.issueWrite_state (h : st.issueWrite = some st') : st'.state = st.state := by
  unfold Stream.issueWrite at h
  repeat' split at h
  all_goals cases h
  rfl

/-- Of the internal actions those that change the state of a stream are not enabled in ABORTING (R24). -/
theorem Stream.internal_aborting {env : Env} {i : StreamId} {e : Effect} (aborting : st.state = .aborting)
    (h : st.internal env i = some (st', e)) : st'.state = .aborting := by
  have of_plain : ∀ (o : Option Stream) (x : Stream × Effect), (∀ s, o = some s → s.state = st.state) →
      plain o = some x → x.1.state = .aborting := by
    intro o x all present
    obtain ⟨s, takes, rfl⟩ := Option.map_eq_some_iff.mp present
    exact (all s takes).trans aborting
  refine Stream.fixed_firstSome (P := fun x : Stream × Effect => x.1.state = .aborting) _ ?_ h
  intro o among x present
  simp only [List.mem_cons, List.not_mem_nil, or_false] at among
  rcases among with rfl | rfl | rfl | rfl | rfl | rfl | rfl | rfl | rfl | rfl
  · exact of_plain _ x (fun _ => Stream.leaveOne_state) present
  · exact of_plain _ x (fun _ => Stream.placeOne_state) present
  · refine of_plain _ x (fun s drops => ?_) present
    unfold Stream.dropReturned at drops
    split at drops <;> cases drops
    rfl
  · rw [Stream.wind, aborting] at present
    exact (Stream.windAborting_state present).trans aborting
  · simp [Stream.handOn, aborting] at present
  · simp [plain, Stream.assembleOne, Stream.mayRead, aborting] at present
  · simp [plain, Stream.closeCommit, aborting] at present
  · exact of_plain _ x (fun _ => Stream.takeHeld_state) present
  · exact of_plain _ x (fun _ => Stream.issueWrite_state) present
  · simp [plain, Stream.fetchOne, aborting] at present

theorem Stream.sendHead_state {k : Nat} {mark bit : Bool} {data : List Byte}
    (h : st.sendHead = some (st', k, mark, bit, data)) : st'.state = st.state := by
  unfold Stream.sendHead at h
  repeat' split at h
  all_goals cases h
  all_goals rfl

theorem Stream.scheduledSent_state (k : Nat) (cycle : CycleNum) (st : Stream) :
    (st.scheduledSent k cycle).state = st.state := by
  unfold Stream.scheduledSent
  dsimp only
  split <;> rfl

theorem Stream.countWrite_state (w : ReceiveWrite) (st : Stream) : (st.countWrite w).state = st.state := by
  unfold Stream.countWrite
  dsimp only
  repeat' split
  all_goals rfl

end

/-! ### Every open stream is ABORTING -/

/-- Every open stream is ABORTING (R180). -/
def Body.Stopping (b : Body) : Prop := ∀ i, ∀ st ∈ b.stream i, st.state = .aborting

section

variable {b b' : Body} {i : StreamId} {st st' : Stream}

theorem Body.Stopping.of_streams (h : b.Stopping) (same : b'.streams = b.streams) : b'.Stopping := fun i st opened =>
  h i st ((Body.stream_of_streams_eq same i).symm.trans opened)

theorem Body.Stopping.withRx (h : b.Stopping) (rx : Option Reception) : Body.Stopping { b with rx := rx } :=
  h.of_streams rfl

theorem Body.Stopping.put (h : b.Stopping) (aborting : st'.state = .aborting) : (b.put i st st').Stopping := by
  intro j x opened
  by_cases at_i : j = i
  · subst at_i
    rw [Body.put_stream_self] at opened
    cases opened
    exact aborting
  · rw [Body.put_stream_ne at_i] at opened
    exact h j x opened

/-- A store event that leaves the state of its stream. -/
theorem Body.Stopping.change (h : b.Stopping) (opened : b.stream i = some st) (same : st'.state = st.state) :
    (b.put i st st').Stopping := h.put (same.trans (h i st opened))

theorem Body.Stopping.modify (h : b.Stopping) {f : Stream → Stream} (same : ∀ st, (f st).state = st.state) :
    (b.modify i f).Stopping := by
  cases opened : b.stream i with
  | none => rwa [Body.modify_none opened]
  | some st => rw [Body.modify_some opened]; exact h.change opened (same st)

/-- An ABORTING stream does not halt (R9). -/
theorem Body.Stopping.halt_eq (h : b.Stopping) (i : StreamId) (cause : HaltCause) : b.halt i cause = b := by
  cases opened : b.stream i with
  | none => exact Body.halt_none opened cause
  | some st =>
    rw [Body.halt_eq opened]
    exact if_neg (Stream.not_mayHalt (.inr (.inr (.inl (h i st opened)))))

theorem Body.Stopping.halt (h : b.Stopping) (i : StreamId) (cause : HaltCause) : (b.halt i cause).Stopping := by
  rwa [h.halt_eq]

theorem Body.Stopping.release (h : b.Stopping) (up : Bool) (i : StreamId) (st : Stream) :
    (b.release up i st).Stopping := by
  intro j x opened
  by_cases at_i : j = i
  · rw [at_i, Body.release_stream_self] at opened
    cases opened
  · rw [Body.release_stream_ne at_i] at opened
    exact h j x opened

theorem Body.Stopping.act {env : Env} {e : Effect} (h : b.Stopping) (opened : b.stream i = some st)
    (acts : st.internal env i = some (st', e)) : (b.act env i st st' e).Stopping := by
  have stored : (b.put i st st').Stopping := h.put (Stream.internal_aborting (h i st opened) acts)
  cases e with
  | released => exact stored.release env.up i st'
  | _ => exact stored.of_streams rfl

/-! ### The Ring Interface and the lane -/

theorem Body.Stopping.setHeldStage (h : b.Stopping) (src : Source) (stage : HeldStage) :
    (b.setHeldStage src stage).Stopping := by
  cases src
  · exact h.modify fun _ => rfl
  · exact h.of_streams rfl

theorem Body.Stopping.joinWaiting (h : b.Stopping) (src : Source) : (b.joinWaiting src).Stopping := by
  unfold Body.joinWaiting
  split
  · split
    · refine Body.Stopping.setHeldStage ?_ src .waiting
      exact h.of_streams rfl
    · exact h
  · exact h

theorem Body.Stopping.issueCompletions (h : b.Stopping) (n : Nat) (c : Fin 4) : (b.issueCompletions n c).Stopping := by
  induction n generalizing b with
  | zero => exact h
  | succ n ih =>
    rw [Body.issueCompletions]
    split
    · split
      · split
        · split
          · refine ih (Body.Stopping.setHeldStage ?_ _ .writing)
            exact h.of_streams rfl
          · exact ih (h.of_streams rfl)
        · exact h
      · exact h
    · exact h

theorem Body.Stopping.scan (h : b.Stopping) : b.scan.Stopping := by
  unfold Body.scan
  split
  · split
    · next opened =>
      split
      · next head => exact (h.change opened (Stream.sendHead_state head)).of_streams rfl
      · exact h
    · exact h
  · exact h

theorem Body.Stopping.startFrame (h : b.Stopping) (env : Env) : (b.startFrame env).Stopping := by
  unfold Body.startFrame
  split
  · exact h
  split
  · exact h.of_streams rfl
  split
  · next f _ _ => cases f <;> exact h.of_streams rfl
  split
  · have turned : (b.runTurns 17).Stopping := h.of_streams (b.runTurns_streams 17)
    dsimp only
    split
    · exact turned.scan
    · exact turned
  · exact h

/-- All that follows from an event leaves the streams ABORTING. -/
theorem Body.Stopping.settle (h : b.Stopping) (env : Env) : (b.settle env).Stopping :=
  Body.settle_invariant (P := Body.Stopping) (fun _ _ _ _ _ h opened acts => h.act opened acts)
    (fun _ src h => h.joinWaiting src) (fun _ n c h => h.issueCompletions n c) (fun _ h => h.of_streams rfl)
    (fun _ h => h.startFrame env) (fun x n h => h.of_streams (x.issueEvents_streams n))
    (fun x n h => h.of_streams (x.fetchAdmin_streams env n)) b h

theorem Body.Stopping.frameEnds (h : b.Stopping) (cycle : CycleNum) : (b.frameEnds cycle).Stopping := by
  unfold Body.frameEnds
  dsimp only
  repeat' split
  · exact h
  · exact h.of_streams rfl
  · exact h.of_streams rfl
  · refine Body.Stopping.modify ?_ fun st => st.scheduledSent_state _ cycle
    exact h.of_streams rfl
  · exact h.of_streams rfl

/-! ### Memory transfers and frames that arrive -/

theorem Body.Stopping.recordFetchEnds (h : b.Stopping) (i : StreamId) (slot : Nat) (result : Option (BitVec 256)) :
    (b.recordFetchEnds i slot result).Stopping := by
  unfold Body.recordFetchEnds
  split
  · next opened =>
    split
    · split
      · exact h.change opened rfl
      · refine Body.Stopping.halt ?_ i .fetchError
        exact h.change opened rfl
    · exact h
  · exact h

theorem Body.Stopping.sendReadEnds (h : b.Stopping) (i : StreamId) (slot : Nat) (result : Option (List Byte)) :
    (b.sendReadEnds i slot result).Stopping := by
  unfold Body.sendReadEnds
  split
  · next opened =>
    split
    · split
      · split
        · exact h.change opened rfl
        · refine Body.Stopping.halt ?_ i .memoryError
          exact h.change opened rfl
      · exact h
    · exact h
  · exact h

theorem Body.Stopping.receiveWriteEnds (h : b.Stopping) (i : StreamId) (ok : Bool) :
    (b.receiveWriteEnds i ok).Stopping := by
  unfold Body.receiveWriteEnds
  split
  · next opened =>
    split
    · dsimp only
      split
      · refine h.change opened ?_
        split
        · rfl
        · exact Stream.countWrite_state ..
      · refine Body.Stopping.halt ?_ i .memoryError
        exact h.change opened rfl
    · exact h
  · exact h

theorem Body.Stopping.ringWriteAccepted (h : b.Stopping) (kind : RingWriteKind) :
    (b.ringWriteAccepted kind).Stopping := by
  rcases kind with (_ | _) | _ | _
  · exact h.modify fun _ => rfl
  all_goals exact h.of_streams rfl

theorem Body.Stopping.undoClaim (h : b.Stopping) : b.undoClaim.Stopping := by
  unfold Body.undoClaim
  split
  · dsimp only
    split
    · refine Body.Stopping.withRx ?_ none
      exact h.modify fun _ => rfl
    · exact h.withRx none
  · exact h

theorem Body.Stopping.headerArrives (h : b.Stopping) (up : Bool) (d : DataHeader) :
    (b.headerArrives up d).Stopping := by
  have free := h.undoClaim
  unfold Body.headerArrives
  dsimp only
  split
  · next opened =>
    split
    · split
      · refine Body.Stopping.withRx ?_ _
        exact free.change opened rfl
      · exact free.withRx _
    · exact free.withRx _
  · exact free.withRx _

theorem Body.Stopping.payloadArrives (h : b.Stopping) (up : Bool) (bytes : List Byte) :
    (b.payloadArrives up bytes).Stopping := by
  unfold Body.payloadArrives
  split
  · dsimp only
    split
    · split
      · refine Body.Stopping.withRx ?_ _
        exact h.modify fun _ => rfl
      · exact h.withRx _
    · exact h.withRx _
  · exact h

/-- In STOPPING a NOTIFY of a stream's work ring is ignored (R153). -/
theorem Body.Stopping.notify (h : b.Stopping) (ring : Nat) (index : BitVec 16) (arm : Bool) :
    (b.notify false ring index arm).Stopping := by
  have bad : (b.badNotify ring index).Stopping := h.of_streams rfl
  have part : ∀ {r : PartRing} {store : PartRing → Body → Body}, (∀ r, (store r b).streams = b.streams) →
      (b.notifyPart ring index arm r store).Stopping := by
    intro r store stores
    unfold Body.notifyPart
    split
    · exact h.of_streams (stores _)
    · exact bad
  unfold Body.notify
  split
  · exact h
  next written =>
    have beyond : 16 < ring := by simpa using written
    split
    · omega
    split
    · omega
    split
    · dsimp only
      split
      · exact part fun _ => rfl
      · exact bad
    split
    · split
      · exact part fun _ => rfl
      · exact bad
    · exact bad

/-- STOP makes every open stream ABORTING (R180). -/
theorem Body.abortAll_stopping (b : Body) : b.abortAll.Stopping := by
  intro i st' opened
  rw [Body.abortAll, Body.modifyAll_stream] at opened
  obtain ⟨st, -, rfl⟩ := Option.map_eq_some_iff.mp opened
  rw [Stream.stored_state]
  split
  · assumption
  · rfl

/-- The loss of the link leaves an ABORTING stream ABORTING (R9, R147). -/
theorem Body.Stopping.loseLink (h : b.Stopping) : b.loseLink.Stopping := by
  obtain ⟨closed, lost⟩ := b.loseLink_streams
  intro i st' opened
  cases was : b.stream i with
  | none => exact absurd (opened.symm.trans ((closed i).mpr was)) nofun
  | some st =>
    obtain ⟨w, same⟩ := lost i st was
    rw [same] at opened
    cases opened
    have aborting := h i st was
    simp [Stream.lostLink, Stream.not_mayHalt (.inr (.inr (.inl aborting))), aborting]

/-! ### What is due once an event has settled (R112) -/

theorem Body.issueEvents_lt (n : Nat) (b : Body) : (b.issueEvents n).lt = b.lt := by
  induction n generalizing b with
  | zero => rfl
  | succ n ih =>
    rw [Body.issueEvents]
    repeat' split
    · exact ih _
    all_goals rfl

theorem Body.fetchAdmin_lt (env : Env) (n : Nat) (b : Body) : (b.fetchAdmin env n).lt = b.lt := by
  induction n generalizing b with
  | zero => rfl
  | succ n ih =>
    rw [Body.fetchAdmin]
    repeat' split
    · exact ih _
    all_goals rfl

theorem Body.runTurns_fresh (n : Nat) (b : Body) : (b.runTurns n).lt.fresh = b.lt.fresh := by
  induction n generalizing b with
  | zero => rfl
  | succ n ih =>
    rw [Body.runTurns]
    dsimp only
    repeat' split
    · rfl
    · exact ih _
    · exact ih _
    · exact ih _
    · rfl

theorem Body.scan_fresh (b : Body) : b.scan.lt.fresh = b.lt.fresh := by
  unfold Body.scan
  repeat' split
  · exact Body.put_fresh ..
  all_goals rfl

theorem Body.startFrame_fresh (env : Env) (b : Body) : (b.startFrame env).lt.fresh = b.lt.fresh := by
  unfold Body.startFrame
  split
  · rfl
  split
  · rfl
  split
  · next f _ _ => cases f <;> rfl
  split
  · dsimp only
    split
    · exact (Body.scan_fresh _).trans (b.runTurns_fresh 17)
    · exact b.runTurns_fresh 17
  · rfl

/-- Between events no frame has just become due (R112). -/
theorem Body.settle_fresh (env : Env) (b : Body) : (b.settle env).lt.fresh = [] := by
  unfold Body.settle
  dsimp only
  rw [Body.fetchAdmin_lt, Body.issueEvents_lt, Body.startFrame_fresh]
  rfl

end

end Sys2Proof.Machine
end

section
/-! SUPPORT. Every command keeps the laws of the function state (chapter 11). They are read twice: as an event's own
effect leaves them, and as its settling does. -/

namespace Sys2Proof.Machine

-- Elaborated in parallel, the proofs of this part wait for one another on threads that pass the check's memory limit.
set_option Elab.async false

open Sys2Proof Host

/-! ### The laws before an event settles -/

/-- The host side is idle, and no frame has just become due. -/
structure Body.AtRest (b : Body) : Prop extends IdleBody b where
  fresh : b.lt.fresh = []

/-- The laws of the function state as an event's own effect leaves them: in RUNNING and STOPPING what has become due is
still to settle (R112). -/
structure State.FunctionSound (s : State) : Prop where
  fault : s.fault.isSome = (s.fn == .faulted)
  heldStop : s.heldStop = true → s.fn = .starting
  rest : s.fn = .off ∨ s.fn = .starting → s.body.AtRest ∧ s.bp.link = .down
  configured : s.fn = .running ∨ s.fn = .stopping → s.body.configured = true
  stopping : s.fn = .stopping → s.body.Stopping ∧ s.bp.link = .down
  still : s.fn = .faulted → s.body.lt.fresh = []

/-- The function state, the fault code, a held STOP and the configuration of the rings are as they were. -/
structure State.Stands (s t : State) : Prop where
  function : (t.fn, t.fault, t.heldStop) = (s.fn, s.fault, s.heldStop)
  rings : t.body.configured = s.body.configured

section

variable {s t u : State}

theorem Body.configured_iff (b : Body) :
    b.configured = true ↔ b.admin.isSome = true ∧ b.completion[(0 : Fin 4)].isSome = true ∧ b.event.isSome = true := by
  simp [Body.configured, and_assoc]

theorem FunctionLaw.sound (l : FunctionLaw s) : s.FunctionSound where
  fault := l.fault
  heldStop := l.heldStop
  rest resting := ⟨⟨(l.idle resting).1, l.settled⟩, (l.idle resting).2⟩
  configured serving := s.body.configured_iff.mpr (l.configured serving)
  stopping := l.stopping
  still _ := l.settled

/-- What has become due has settled, and the laws hold between events. -/
theorem State.FunctionSound.law (h : s.FunctionSound) (settled : s.body.lt.fresh = []) : FunctionLaw s where
  fault := h.fault
  heldStop := h.heldStop
  idle resting := ⟨(h.rest resting).1.toIdleBody, (h.rest resting).2⟩
  configured serving := s.body.configured_iff.mp (h.configured serving)
  stopping := h.stopping
  settled := settled

/-! ### Settling -/

/-- In RUNNING and STOPPING the laws ask of the body that the rings stay configured, and the streams ABORTING in
STOPPING. -/
theorem State.FunctionSound.withBody (h : s.FunctionSound) (serving : s.fn = .running ∨ s.fn = .stopping) {b : Body}
    (rings : b.configured = s.body.configured) (stopping : s.body.Stopping → b.Stopping) :
    State.FunctionSound { s with body := b } := by
  refine ⟨h.fault, h.heldStop, fun resting => ?_, fun _ => rings.trans (h.configured serving), fun fn => ?_,
    fun fn => ?_⟩
  · rcases serving with fn | fn <;> simp [fn] at resting
  · obtain ⟨streams, down⟩ := h.stopping fn
    exact ⟨stopping streams, down⟩
  · rcases serving with serves | serves <;> exact absurd (serves.symm.trans fn) nofun

/-- The settling leaves the laws as they were. -/
theorem State.FunctionSound.settleBody (h : s.FunctionSound) (serving : s.fn = .running ∨ s.fn = .stopping) :
    (s.onBody (Body.settle s.env)).FunctionSound :=
  h.withBody serving (Body.settle_configured s.env s.body) fun streams => streams.settle s.env

theorem State.settleBody_fresh (s : State) : (s.onBody (Body.settle s.env)).body.lt.fresh = [] := by
  rw [State.onBody_body]
  exact Body.settle_fresh s.env s.body

/-- Where a stop ends the host side is idle, and the link has been DOWN since it was applied (R180, R181). -/
theorem State.FunctionSound.stopEnds (h : s.FunctionSound) (fn : s.fn = .stopping) (done : s.body.stopDone = true) :
    s.stopEnds.FunctionSound where
  fault := by
    have none := h.fault
    rw [fn] at none
    exact none
  heldStop held := absurd ((h.heldStop held).symm.trans fn) nofun
  rest _ := by
    obtain ⟨closed, table, ringWrites, -⟩ := (Body.stopDone_iff _).mp done
    refine ⟨⟨⟨closed, rfl, fun c => ?_, rfl, ringWrites, table, rfl, rfl, rfl⟩, rfl⟩, (h.stopping fn).2⟩
    simp [State.stopEnds, Body.unconfigure]
  configured := nofun
  stopping := nofun
  still := nofun

theorem State.stopEnds_fresh (s : State) : s.stopEnds.body.lt.fresh = [] := rfl

theorem State.FunctionSound.settle (h : s.FunctionSound) : FunctionLaw s.settle := by
  cases fn : s.fn with
  | running =>
    rw [State.settle_running fn]
    exact (h.settleBody (.inl fn)).law s.settleBody_fresh
  | stopping =>
    have settled := h.settleBody (.inr fn)
    rw [State.settle_stopping fn]
    split
    · next done => exact (settled.stopEnds ((State.onBody_fn ..).trans fn) done).law (State.stopEnds_fresh _)
    · exact settled.law s.settleBody_fresh
  | faulted =>
    rw [State.settle_stands (by simp [fn]) (by simp [fn])]
    exact h.law (h.still fn)
  | off =>
    rw [State.settle_stands (by simp [fn]) (by simp [fn])]
    exact h.law (h.rest (.inl fn)).1.fresh
  | starting =>
    rw [State.settle_stands (by simp [fn]) (by simp [fn])]
    exact h.law (h.rest (.inr fn)).1.fresh

/-- An event keeps the laws if its own effect does outside FAULTED. -/
theorem FunctionLaw.event {effect : State → State} (l : FunctionLaw s)
    (keeps : s.fn ≠ .faulted → (effect s).FunctionSound) : FunctionLaw (s.event effect) := by
  unfold State.event
  split
  · exact l
  · next acting => exact (keeps acting).settle

/-- A fault leaves nothing due that was not due before (R182). -/
theorem FunctionLaw.enterFault (l : FunctionLaw s) (code : FaultCode) : (s.enterFault code).FunctionSound where
  fault := rfl
  heldStop := nofun
  rest := nofun
  configured := nofun
  stopping := nofun
  still _ := l.settled

/-! ### Changes that leave the function state -/

theorem State.Stands.refl (s : State) : s.Stands s := ⟨rfl, rfl⟩

theorem State.Stands.trans (h : s.Stands t) (h' : t.Stands u) : s.Stands u :=
  ⟨h'.function.trans h.function, h'.rings.trans h.rings⟩

/-- A change before another: the second is named first. -/
theorem State.Stands.after (h' : t.Stands u) (h : s.Stands t) : s.Stands u := h.trans h'

/-- The body changes with its rings configured as they were. -/
theorem State.Stands.of_rings (rings : t.body.configured = s.body.configured)
    (function : (t.fn, t.fault, t.heldStop) = (s.fn, s.fault, s.heldStop) := by exact rfl) : s.Stands t :=
  ⟨function, rings⟩

/-- The laws hold after a change that leaves the function state, if it leaves the host side at rest where it was, and
the streams ABORTING in STOPPING. -/
theorem State.FunctionSound.of_stands (h : s.FunctionSound) (acting : s.fn ≠ .faulted) (stands : s.Stands t)
    (rest : s.body.AtRest → s.bp.link = .down → t.body.AtRest ∧ t.bp.link = .down)
    (stopping : s.fn = .stopping → s.body.Stopping → s.bp.link = .down → t.body.Stopping ∧ t.bp.link = .down) :
    t.FunctionSound := by
  obtain ⟨function, rings⟩ := stands
  simp only [Prod.mk.injEq] at function
  obtain ⟨fn, fault, heldStop⟩ := function
  refine ⟨?_, ?_, ?_, ?_, ?_, ?_⟩ <;> rw [fn]
  · rw [fault]
    exact h.fault
  · rw [heldStop]
    exact h.heldStop
  · intro resting
    obtain ⟨rested, down⟩ := h.rest resting
    exact rest rested down
  · intro serving
    rw [rings]
    exact h.configured serving
  · intro stops
    obtain ⟨streams, down⟩ := h.stopping stops
    exact stopping stops streams down
  · exact fun faulted => absurd faulted acting

/-- In RUNNING no more is asked. -/
theorem State.FunctionSound.of_running (h : s.FunctionSound) (running : s.fn = .running) (stands : s.Stands t) :
    t.FunctionSound := by
  obtain ⟨function, rings⟩ := stands
  simp only [Prod.mk.injEq] at function
  obtain ⟨fn, fault, heldStop⟩ := function
  rw [running] at fn
  refine ⟨?_, ?_, ?_, ?_, ?_, ?_⟩ <;> rw [fn]
  · rw [fault, h.fault, running]
  · exact fun held => absurd ((h.heldStop (heldStop ▸ held)).symm.trans running) nofun
  · nofun
  · exact fun _ => rings.trans (h.configured (.inl running))
  · nofun
  · nofun

/-- A command of the link does nothing while the link is DOWN, as it is but in RUNNING. -/
theorem State.FunctionSound.of_link (h : s.FunctionSound) (acting : s.fn ≠ .faulted) (down : s.bp.link = .down → t = s)
    (stands : s.Stands t) : t.FunctionSound :=
  h.of_stands acting stands (fun rested is_down => by rw [down is_down]; exact ⟨rested, is_down⟩)
    fun _ streams is_down => by rw [down is_down]; exact ⟨streams, is_down⟩

/-- A change of the body leaves the rest of the part. -/
theorem State.FunctionSound.onBody {f : Body → Body} (h : s.FunctionSound) (acting : s.fn ≠ .faulted)
    (rings : (f s.body).configured = s.body.configured) (rest : s.body.AtRest → (f s.body).AtRest)
    (stopping : s.fn = .stopping → s.body.Stopping → (f s.body).Stopping) : (s.onBody f).FunctionSound :=
  h.of_stands acting (.of_rings rings) (fun rested down => ⟨rest rested, down⟩)
    fun stops streams down => ⟨stopping stops streams, down⟩

/-- A change of neither the function state, the body nor the link state. -/
theorem FunctionLaw.of_same (l : FunctionLaw s)
    (same : (t.fn, t.fault, t.heldStop, t.body, t.bp.link) = (s.fn, s.fault, s.heldStop, s.body, s.bp.link)) :
    FunctionLaw t := by
  simp only [Prod.mk.injEq] at same
  obtain ⟨fn, fault, heldStop, body, link⟩ := same
  exact ⟨by rw [fault, fn]; exact l.fault, by rw [heldStop, fn]; exact l.heldStop,
    by rw [fn, body, link]; exact l.idle, by rw [fn, body]; exact l.configured,
    by rw [fn, body, link]; exact l.stopping, by rw [body]; exact l.settled⟩

end

/-! ### The link -/

theorem State.stands_leaveUpWith {streams : Body → Body} (same : ∀ b, (streams b).configured = b.configured)
    (cause : DownCause) (s : State) : s.Stands (s.leaveUpWith streams cause) :=
  .of_rings (same (s.body.raise none (.linkState .down (some cause))))

theorem Body.loseLink_configured (b : Body) : b.loseLink.configured = b.configured := by
  rw [Body.loseLink]
  exact Body.loseLinkAfter_configured (fun _ _ => rfl) b

theorem State.stands_leaveUp (cause : DownCause) (s : State) : s.Stands (s.leaveUp cause) :=
  s.stands_leaveUpWith (streams := Body.loseLink) Body.loseLink_configured cause

theorem State.stands_bringUpFails (cause : DownCause) (status : Status) (s : State) :
    s.Stands (s.bringUpFails cause status) :=
  .of_rings (Body.completePending_configured ..)

theorem State.stands_takeDown (cause : DownCause) (status : Status) (s : State) :
    s.Stands (s.takeDown cause status) := by
  unfold State.takeDown
  split
  · exact .refl s
  · exact s.stands_bringUpFails cause status
  · exact s.stands_bringUpFails cause status
  · exact s.stands_leaveUp cause

theorem State.stands_takeDownHere (status : Status) (s : State) : s.Stands (s.takeDownHere status) := by
  have down := s.stands_takeDown .requested status
  unfold State.takeDownHere
  dsimp only
  split
  · exact down.trans (.of_rings rfl)
  · exact down

theorem State.stands_startCycle (n : CycleNum) (s : State) : s.Stands (s.startCycle n) := by
  have answered : s.answered.configured = s.body.configured :=
    foldl_keeps Body.configured (fun b i => b.advanceAnswer_configured true i) _ s.begun
  rw [State.startCycle_eq]
  split
  · refine (State.stands_leaveUpWith (Body.loseLinkAfter_configured fun _ _ => ?_) .peerSilent _).after (.of_rings rfl)
    exact Body.advanceAnswer_configured ..
  · exact .of_rings (s.answered.advanceNotices_configured.trans answered)

theorem State.stands_reachUp (n : CycleNum) (s : State) : s.Stands (s.reachUp n) := by
  rw [State.reachUp_eq]
  refine (State.stands_startCycle n _).after (.of_rings ?_)
  dsimp only
  rw [Body.completePending_configured, Body.examine_configured, Body.calledUp_configured]

theorem State.stands_markerArrives (m : CycleNum) (s : State) : s.Stands (s.markerArrives m) := by
  unfold State.markerArrives
  split
  · split
    · exact .refl s
    · exact .refl s
    · split
      · exact (State.stands_reachUp m _).after (.of_rings rfl)
      · exact .refl s
    · have again : s.Stands (s.retimed m) := .of_rings rfl
      split
      · exact .refl s
      · rw [State.markerInUp_eq]
        split
        · exact again.trans (State.stands_startCycle m _)
        · split
          · exact again
          · exact (State.stands_startCycle m _).after (.of_rings rfl)
  · exact .refl s

theorem State.stands_echoArrives (m : CycleNum) (s : State) : s.Stands (s.echoArrives m) := by
  unfold State.echoArrives
  split
  · exact .of_rings rfl
  · exact .refl s

theorem State.stands_periodExpires (s : State) : s.Stands s.periodExpires := by
  by_cases acts : ∃ t, s.ce.periodEnds = some t ∧ t ≤ s.now ∧ s.ce.role = some .leader ∧ s.bp.link = .up
  · obtain ⟨t, runs, come, leader, up⟩ := acts
    rw [State.periodExpires_due leader up runs come]
    split
    · exact (State.stands_leaveUp .peerSilent _).after (.of_rings rfl)
    · exact (State.stands_startCycle _ _).after (.of_rings rfl)
  · rw [State.periodExpires_void]
    · exact .refl s
    · by_contra acting
      push Not at acting
      obtain ⟨leader, up, t, runs, come⟩ := acting
      exact acts ⟨t, runs, come, leader, up⟩

theorem State.stands_deadlinePasses (s : State) : s.Stands s.deadlinePasses := by
  by_cases acts : ∃ t, s.ce.expected = some t ∧ t + s.ce.inForce.grace ≤ s.now ∧ s.ce.role = some .follower ∧
      s.bp.link = .up
  · obtain ⟨t, runs, come, follower, up⟩ := acts
    rw [State.deadlinePasses_due follower up runs come]
    split
    · exact (State.stands_leaveUp .syncLost _).after (.of_rings rfl)
    · exact (State.stands_startCycle _ _).after (.of_rings rfl)
  · rw [State.deadlinePasses_void]
    · exact .refl s
    · by_contra acting
      push Not at acting
      obtain ⟨follower, up, t, runs, come⟩ := acting
      exact acts ⟨t, runs, come, follower, up⟩

/-! ### Calling and the exchange -/

theorem State.stands_helloDue (s : State) : s.Stands s.helloDue := by
  unfold State.helloDue
  split
  · exact .refl s
  · exact .of_rings rfl

theorem State.stands_callPeer (id : Nat) (role : Role) (period : Period) (timeout : Nat) (s : State) :
    s.Stands (s.callPeer id role period timeout) := by
  unfold State.callPeer
  dsimp only
  refine State.Stands.after (.of_rings (Body.raise_configured ..)) ?_
  exact (State.stands_helloDue _).after (.of_rings rfl)

theorem State.stands_helloExpires (s : State) : s.Stands s.helloExpires := by
  unfold State.helloExpires
  split
  · split
    · exact (State.stands_helloDue _).after (.of_rings rfl)
    · exact .refl s
  · exact .refl s

theorem State.stands_bringUpExpires (s : State) : s.Stands s.bringUpExpires := by
  unfold State.bringUpExpires
  split
  · split
    · exact s.stands_bringUpFails .timeout .timeout
    · exact .refl s
  · exact .refl s

theorem State.stands_sendChunk (k sends : Nat) (s : State) : s.Stands (s.sendChunk k sends) := .of_rings rfl

theorem State.stands_beginExchange (h : PeerHello) (s : State) : s.Stands (s.beginExchange h) := by
  rw [State.beginExchange_eq]
  split <;> exact .of_rings rfl

theorem State.stands_helloArrives (h : PeerHello) (s : State) : s.Stands (s.helloArrives h) := by
  have checked : s.Stands (s.helloChecked h) := by
    unfold State.helloChecked
    repeat' split
    · exact s.stands_bringUpFails _ _
    · exact s.stands_bringUpFails _ _
    · exact s.stands_bringUpFails _ _
    · exact s.stands_beginExchange h
  unfold State.helloArrives
  split
  · exact .refl s
  · exact checked
  · split
    · exact .refl s
    · exact checked
  · exact s.stands_leaveUp .peerDown

theorem State.stands_exchangeDone (s : State) : s.Stands s.exchangeDone := by
  unfold State.exchangeDone
  split
  · exact s.stands_reachUp 0
  · exact .refl s

theorem State.stands_ackArrives (number : Byte) (s : State) : s.Stands (s.ackArrives number) := by
  have quiet : s.Stands s.stopHello := .of_rings rfl
  unfold State.ackArrives
  split
  · split
    · split
      · unfold State.chunkAcked
        split
        · exact .of_rings rfl
        · exact (State.stands_exchangeDone _).after (.of_rings rfl)
      · exact quiet
    · exact quiet
  · exact .refl s

theorem State.stands_answerExpires (s : State) : s.Stands s.answerExpires := by
  unfold State.answerExpires
  repeat' split
  · exact s.stands_sendChunk _ _
  · exact s.stands_bringUpFails _ _
  all_goals exact .refl s

theorem State.stands_chunkMeasured (h : PeerHello) (x : Incoming) (number : Byte) (bytes : List Byte) (s : State) :
    s.Stands (s.chunkMeasured h x number bytes) := by
  unfold State.chunkMeasured
  dsimp only
  split
  · exact .of_rings rfl
  split
  · exact s.stands_bringUpFails _ _
  split
  · unfold State.lastChunk
    split
    · exact (State.stands_exchangeDone _).after (.of_rings rfl)
    · exact s.stands_bringUpFails _ _
  · exact .of_rings rfl

theorem State.stands_chunkArrives (number : Byte) (bytes : List Byte) (s : State) :
    s.Stands (s.chunkArrives number bytes) := by
  have quiet : s.Stands s.stopHello := .of_rings rfl
  unfold State.chunkArrives
  split
  · exact .refl s
  · exact .refl s
  · split
    · exact quiet.trans (State.stands_chunkMeasured _ _ _ _ _)
    · exact quiet
  · exact .of_rings rfl

theorem State.stands_farewellArrives (s : State) : s.Stands s.farewellArrives := by
  unfold State.farewellArrives
  split
  · exact .refl s
  · exact .refl s
  · exact s.stands_bringUpFails _ _
  · exact s.stands_leaveUp .peerDown

theorem State.stands_signalLost (s : State) : s.Stands s.signalLost := by
  rw [State.signalLost_eq]
  split
  · exact (s.stands_takeDown .noSignal .aborted).trans (.of_rings rfl)
  · exact .of_rings rfl

/-! ### Requests -/

theorem State.stands_finish (id : Nat) (status : Status) (result : Nat) (s : State) :
    s.Stands (s.finish id status result) := .of_rings rfl

theorem State.stands_onBody {f : Body → Body} (s : State) (same : (f s.body).configured = s.body.configured) :
    s.Stands (s.onBody f) := .of_rings same

theorem State.stands_watchRequest (id : Nat) (i : StreamId) (mode dir measure : Byte) (threshold : Word) (s : State) :
    s.Stands (s.watchRequest id i mode dir measure threshold) := by
  unfold State.watchRequest
  split
  · split
    · exact (s.stands_onBody (Body.put_configured ..)).trans (State.stands_finish ..)
    split
    · split
      · refine (s.stands_onBody ?_).trans (State.stands_finish ..)
        dsimp only
        split <;> simp
      · exact s.stands_finish ..
    · exact s.stands_finish ..
  · exact s.stands_finish ..

theorem State.stands_carryOutStream (id : Nat) (i : StreamId) (r : AdminRecord) (s : State) :
    s.Stands (s.carryOutStream id i r) := by
  unfold State.carryOutStream
  split
  · unfold State.openRequest
    split
    · exact s.stands_finish ..
    · exact (s.stands_onBody (Body.openAt_configured ..)).trans (State.stands_finish ..)
  split
  · unfold State.closeRequest
    repeat' split
    · exact s.stands_onBody (Body.put_configured ..)
    all_goals exact s.stands_finish ..
  split
  · unfold State.abortRequest
    split
    · exact s.stands_onBody (Body.put_configured ..)
    · exact s.stands_finish ..
  split
  · unfold State.flushRequest
    repeat' split
    · exact s.stands_onBody (Body.put_configured ..)
    all_goals exact s.stands_finish ..
  split
  · unfold State.resumeRequest
    split
    · exact s.stands_finish ..
    · exact (s.stands_onBody (Body.modify_configured ..)).trans (State.stands_finish ..)
  split
  · exact s.stands_watchRequest ..
  · unfold State.queryStreamRequest
    split <;> exact .of_rings rfl

theorem State.stands_carryOutLink (id : Nat) (r : AdminRecord) (s : State) : s.Stands (s.carryOutLink id r) := by
  unfold State.carryOutLink
  split
  · unfold State.linkUpRequest
    repeat' split
    · exact s.stands_callPeer ..
    all_goals exact s.stands_finish ..
  split
  · have down := s.stands_takeDownHere .overtaken
    unfold State.linkDownRequest
    dsimp only
    split
    · exact down
    · exact down.trans (State.stands_finish ..)
  split
  · unfold State.loadProfileRequest
    repeat' split
    all_goals exact .of_rings rfl
  split
  · unfold State.readPeerRequest
    repeat' split
    all_goals exact .of_rings rfl
  · unfold State.queryLinkRequest
    split <;> exact .of_rings rfl

theorem State.stands_takeRequest (position : Nat) (r : AdminRecord) (s : State) :
    s.Stands (s.takeRequest position r) := by
  unfold State.takeRequest
  dsimp only
  split
  · exact .of_rings rfl
  split
  · split
    · exact (State.stands_carryOutStream _ _ r _).after (.of_rings rfl)
    · exact .of_rings rfl
  · exact (State.stands_carryOutLink _ r _).after (.of_rings rfl)

theorem State.stands_handOnRequests (n : Nat) (s : State) : s.Stands (s.handOnRequests n) := by
  induction n generalizing s with
  | zero => exact .refl s
  | succ n ih =>
    rw [State.handOnRequests]
    split
    · next held =>
      split
      · refine (ih _).after (State.Stands.after (State.stands_onBody _ (Body.runStreams_configured ..)) ?_)
        exact (State.stands_takeRequest ..).after (s.stands_onBody (Body.setAdmin_configured held _))
      · exact .refl s
    · exact .refl s

section

variable {s : State}

/-! ### Commands of the link in DOWN -/

theorem State.markerArrives_of_down (down : s.bp.link = .down) (m : CycleNum) : s.markerArrives m = s := by
  simp [State.markerArrives, down]

theorem State.echoArrives_of_down (down : s.bp.link = .down) (m : CycleNum) : s.echoArrives m = s := by
  simp [State.echoArrives, down]

theorem State.helloArrives_of_down (down : s.bp.link = .down) (h : PeerHello) : s.helloArrives h = s := by
  simp [State.helloArrives, down]

theorem State.chunkArrives_of_down (down : s.bp.link = .down) (number : Byte) (bytes : List Byte) :
    s.chunkArrives number bytes = s := by simp [State.chunkArrives, down]

theorem State.ackArrives_of_down (down : s.bp.link = .down) (number : Byte) : s.ackArrives number = s := by
  simp [State.ackArrives, down]

theorem State.farewellArrives_of_down (down : s.bp.link = .down) : s.farewellArrives = s := by
  simp [State.farewellArrives, down]

theorem State.periodExpires_of_down (down : s.bp.link = .down) : s.periodExpires = s :=
  State.periodExpires_void (by simp [down])

theorem State.deadlinePasses_of_down (down : s.bp.link = .down) : s.deadlinePasses = s :=
  State.deadlinePasses_void (by simp [down])

/-- In DOWN no timer of a bring-up runs (R137, R139, R143). -/
theorem LinkLaw.idle_of_down (l : LinkLaw s) (down : s.bp.link = .down) : s.bp.Idle := by
  obtain ⟨⟨idle, -⟩, -⟩ := (linkLaw_down down).mp l
  exact idle

theorem LinkLaw.helloExpires_of_down (l : LinkLaw s) (down : s.bp.link = .down) : s.helloExpires = s := by
  simp [State.helloExpires, (l.idle_of_down down).helloTimer]

theorem LinkLaw.answerExpires_of_down (l : LinkLaw s) (down : s.bp.link = .down) : s.answerExpires = s := by
  simp [State.answerExpires, (l.idle_of_down down).outgoing]

theorem LinkLaw.bringUpExpires_of_down (l : LinkLaw s) (down : s.bp.link = .down) : s.bringUpExpires = s := by
  simp [State.bringUpExpires, (l.idle_of_down down).bringUpTimer]

/-! ### START and STOP -/

/-- STOP takes down whatever state the link is in, and leaves the streams ABORTING (R180). -/
theorem State.takeDownHere_stopping (streams : s.body.Stopping) (status : Status) :
    (s.takeDownHere status).body.Stopping ∧ (s.takeDownHere status).bp.link = .down := by
  have down : (s.takeDown .requested status).body.Stopping := by
    have fails : (s.bringUpFails .requested status).body.Stopping := by
      refine streams.of_streams ?_
      simp [State.bringUpFails, Body.completePending_eq]
    unfold State.takeDown
    split
    · exact streams
    · exact fails
    · exact fails
    · have raised : (s.body.raise none (.linkState .down (some .requested))).Stopping := streams.of_streams rfl
      exact raised.loseLink.of_streams (by rw [State.leaveUp_body])
  have link := State.takeDown_down .requested status s
  unfold State.takeDownHere
  dsimp only
  split
  · exact ⟨down.of_streams rfl, link⟩
  · exact ⟨down, link⟩

/-- The part as STOP leaves its streams, before the link goes DOWN (R180). -/
def State.abortingAll (s : State) : State := { s with fn := .stopping, body := s.body.abortAll }

theorem State.abortingAll_body (s : State) : s.abortingAll.body = s.body.abortAll := by
  rw [State.abortingAll]

theorem State.applyStop_eq (s : State) :
    s.applyStop = (s.abortingAll.takeDownHere .aborted).onBody fun b =>
      (b.completeIf (fun e => e.work == Work.none) .aborted 0).dropRequests := rfl

/-- STOP is applied to a part whose rings are configured (R180). -/
theorem State.FunctionSound.applyStop (h : s.FunctionSound) (running : s.fn = .running) :
    s.applyStop.FunctionSound := by
  have no_fault : s.fault.isSome = false := by simp [h.fault, running]
  have not_held : s.heldStop ≠ true := fun held => absurd ((h.heldStop held).symm.trans running) nofun
  have streams : s.abortingAll.body.Stopping := by
    rw [State.abortingAll_body]
    exact Body.abortAll_stopping s.body
  have rings : s.abortingAll.body.configured = true := by
    rw [State.abortingAll_body, Body.abortAll_configured]
    exact h.configured (.inl running)
  have taken := s.abortingAll.stands_takeDownHere .aborted
  have down := s.abortingAll.takeDownHere_stopping streams .aborted
  obtain ⟨t, stopped⟩ : ∃ t, s.abortingAll.takeDownHere .aborted = t := ⟨_, rfl⟩
  rw [State.applyStop_eq, stopped]
  rw [stopped] at taken down
  obtain ⟨function, same⟩ := taken
  simp only [Prod.mk.injEq] at function
  obtain ⟨fn, fault, heldStop⟩ := function
  replace fn : t.fn = .stopping := fn
  refine ⟨?_, ?_, ?_, ?_, ?_, ?_⟩ <;> simp only [State.onBody_fn, fn]
  · exact (congrArg Option.isSome fault).trans no_fault
  · exact fun held => absurd (heldStop.symm.trans held) not_held
  · nofun
  · intro _
    rw [State.onBody_body, Body.dropRequests_configured, Body.completeIf_configured, same, rings]
  · exact fun _ => ⟨down.1.of_streams rfl, down.2⟩
  · nofun

theorem FunctionLaw.stopCommand (l : FunctionLaw s) : s.stopCommand.FunctionSound := by
  unfold State.stopCommand
  split
  · exact l.sound
  · next fn =>
    exact { l.sound with heldStop := fun _ => fn }
  · next fn => exact l.sound.applyStop fn
  · exact l.sound
  · exact l.sound

theorem FunctionLaw.startCommand (l : FunctionLaw s) : s.startCommand.FunctionSound := by
  unfold State.startCommand
  split
  · next fn =>
    split
    · have no_fault := l.fault
      rw [fn] at no_fault
      exact ⟨no_fault, fun _ => rfl, fun _ => l.sound.rest (.inl fn), nofun, nofun, nofun⟩
    · exact l.enterFault .badControlBlock
  all_goals exact l.sound

/-- A valid control block configures the admin ring, completion ring 0 and the event ring (R150, R151). -/
theorem Body.configure_configured {c : ControlBlock} (valid : c.valid = true) (b : Body) :
    (b.configure c).configured = true := by
  have one : 0 < c.ringCount := by
    simp only [ControlBlock.valid, Bool.and_eq_true, decide_eq_true_eq] at valid
    omega
  simp [Body.configured, Body.configure, one]

theorem FunctionLaw.controlBlockRead (l : FunctionLaw s) (result : Option (BitVec 1024)) :
    (s.controlBlockRead result).FunctionSound := by
  unfold State.controlBlockRead
  split
  · next fn =>
    have no_fault := l.fault
    rw [fn] at no_fault
    split
    · dsimp only
      split
      · next valid =>
        have started : State.FunctionSound
            { s with fn := .running, heldStop := false, body := s.body.configure (ControlBlock.read _) } :=
          ⟨no_fault, nofun, nofun, fun _ => Body.configure_configured valid s.body, nofun, nofun⟩
        split
        · exact started.applyStop rfl
        · exact started
      · exact l.enterFault .badControlBlock
    · exact l.enterFault .badControlBlock
  · exact l.sound

theorem FunctionLaw.resetBlocks (s : State) : FunctionLaw s.resetBlocks where
  fault := rfl
  heldStop := nofun
  idle _ := by
    refine ⟨⟨fun i => ?_, rfl, fun c => ?_, rfl, rfl, rfl, rfl, rfl, rfl⟩, rfl⟩
    · simp [State.resetBlocks, Body.stream, Body.reset]
    · simp [State.resetBlocks, Body.reset]
  configured := nofun
  stopping := nofun
  settled := rfl

/-- A NOTIFY is decoded in RUNNING and STOPPING alone (R153). -/
theorem FunctionLaw.notifyWrite (l : FunctionLaw s) (value : Word) : (s.notifyWrite value).FunctionSound := by
  unfold State.notifyWrite
  split
  · next serving =>
    rcases serving with running | stopping
    · exact l.sound.of_running running (s.stands_onBody (Body.notify_configured ..))
    · refine l.sound.of_stands (by simp [stopping]) (s.stands_onBody (Body.notify_configured ..)) (fun rested _ => ?_)
        fun _ streams down => ⟨?_, down⟩
      · have configured := l.sound.configured (.inr stopping)
        simp [Body.configured, rested.admin] at configured
      · rw [stopping]
        exact streams.notify _ _ _
  · exact l.sound

theorem FunctionLaw.registerWrite (l : FunctionLaw s) (offset value : Word) :
    FunctionLaw (s.registerWrite offset value) := by
  unfold State.registerWrite
  split
  · exact l.of_same rfl
  split
  · exact l.of_same rfl
  split
  · unfold State.functionWrite
    repeat' split
    · exact l.event fun _ => l.startCommand
    · exact l.event fun _ => l.stopCommand
    · exact FunctionLaw.resetBlocks s
    · exact l
  split
  · exact l.event fun _ => l.notifyWrite value
  · exact l

/-! ### The admin ring and the ends of memory transfers -/

/-- With the host side at rest no admin fetch is in flight (R149). -/
theorem FunctionLaw.adminFetchEnds (l : FunctionLaw s) (acting : s.fn ≠ .faulted) (slot : Nat)
    (result : Option (BitVec 256)) : (s.adminFetchEnds slot result).FunctionSound := by
  unfold State.adminFetchEnds
  split
  · next ring held =>
    have admin : ∀ r, s.Stands (s.onBody fun b => { b with admin := some r }) := fun r =>
      s.stands_onBody (Body.setAdmin_configured held r)
    split
    · cases fn : s.fn <;> cases result
      case running.some bits => exact l.sound.of_running fn ((admin _).trans (State.stands_handOnRequests 8 _))
      case running.none => exact l.enterFault .adminFetch
      case faulted.none => exact absurd fn acting
      case faulted.some => exact absurd fn acting
      all_goals
        refine l.sound.of_stands (by simp [fn]) (admin _) (fun rested _ => ?_) fun _ streams down =>
          ⟨streams.of_streams rfl, down⟩
        exact absurd (held.symm.trans rested.admin) nofun
    · exact l.sound
  · exact l.sound

theorem FunctionLaw.requestArrives (l : FunctionLaw s) (acting : s.fn ≠ .faulted) (r : AdminRecord) :
    (s.requestArrives r).FunctionSound := by
  unfold State.requestArrives
  repeat' split
  · exact l.adminFetchEnds acting _ _
  all_goals exact l.sound

/-- With the host side at rest no write of the Ring Interface is in flight (R149). -/
theorem FunctionLaw.ringWriteEnds (l : FunctionLaw s) (acting : s.fn ≠ .faulted) (p : RingWrite → Bool) (ok : Bool) :
    (s.ringWriteEnds p ok).FunctionSound := by
  unfold State.ringWriteEnds
  split
  · next found =>
    split
    · refine l.sound.onBody acting (Body.ringWriteAccepted_configured ..) (fun rested => ?_) fun _ streams =>
        Body.Stopping.ringWriteAccepted ?_ _
      · rw [rested.ringWrites] at found
        cases found
      · exact streams.of_streams rfl
    · exact l.enterFault .postWrite
  · exact l.sound

/-- With the host side at rest no request is in the table (R168). -/
theorem Body.AtRest.entry {b : Body} (rested : b.AtRest) (id : Nat) : b.entry id = none := by
  rw [Body.entry, rested.table]
  rfl

/-- A request completes or waits on only if it is in the table. -/
theorem State.FunctionSound.of_entry {t : State} (h : s.FunctionSound) (acting : s.fn ≠ .faulted) (stands : s.Stands t)
    (beside : t.body.streams = s.body.streams ∧ t.bp.link = s.bp.link) (none : s.body.AtRest → t = s) :
    t.FunctionSound := by
  obtain ⟨streams, link⟩ := beside
  refine h.of_stands acting stands (fun rested down => ?_)
    fun _ stops down => ⟨stops.of_streams streams, link.trans down⟩
  rw [none rested]
  exact ⟨rested, down⟩

theorem State.stands_profileReadEnds (id : Nat) (result : Option (List Byte)) (s : State) :
    s.Stands (s.profileReadEnds id result) := by
  unfold State.profileReadEnds
  dsimp only
  repeat' split
  all_goals exact .of_rings rfl

theorem State.profileReadEnds_beside (id : Nat) (result : Option (List Byte)) (s : State) :
    (s.profileReadEnds id result).body.streams = s.body.streams ∧
      (s.profileReadEnds id result).bp.link = s.bp.link := by
  unfold State.profileReadEnds
  dsimp only
  repeat' split
  all_goals exact ⟨rfl, rfl⟩

theorem FunctionLaw.profileReadEnds (l : FunctionLaw s) (acting : s.fn ≠ .faulted) (id : Nat)
    (result : Option (List Byte)) : (s.profileReadEnds id result).FunctionSound :=
  l.sound.of_entry acting (s.stands_profileReadEnds id result) (s.profileReadEnds_beside id result) fun rested => by
    rw [State.profileReadEnds, rested.entry]
    rfl

theorem State.stands_writesEnd (id : Nat) (ok : Bool) (result : Nat) (s : State) :
    s.Stands (s.writesEnd id ok result) := by
  unfold State.writesEnd
  repeat' split
  all_goals exact s.stands_finish ..

theorem State.writesEnd_beside (id : Nat) (ok : Bool) (result : Nat) (s : State) :
    (s.writesEnd id ok result).body.streams = s.body.streams ∧ (s.writesEnd id ok result).bp.link = s.bp.link := by
  unfold State.writesEnd
  repeat' split
  all_goals exact ⟨rfl, rfl⟩

/-- With the host side at rest no request waits for its writes (R168). -/
theorem FunctionLaw.writesEnd (l : FunctionLaw s) (acting : s.fn ≠ .faulted) {id : Nat} {w : Work}
    (waits : (s.body.entry id).map Entry.work = some w) (ok : Bool) (result : Nat) :
    (s.writesEnd id ok result).FunctionSound :=
  l.sound.of_entry acting (s.stands_writesEnd id ok result) (s.writesEnd_beside id ok result) fun rested => by
    rw [rested.entry] at waits
    cases waits

/-! ### Frames and memory transfers of streams that are all CLOSED -/

section

variable {b : Body}

theorem Body.AtRest.withRx (h : b.AtRest) (rx : Option Reception) : Body.AtRest { b with rx := rx } :=
  { h with closed := h.closed }

theorem Body.AtRest.modify (h : b.AtRest) (i : StreamId) (f : Stream → Stream) : (b.modify i f).AtRest := by
  rwa [Body.modify_none (h.closed i)]

theorem Body.AtRest.undoClaim (h : b.AtRest) : b.undoClaim.AtRest := by
  unfold Body.undoClaim
  split
  · dsimp only
    split
    · exact (h.modify _ _).withRx none
    · exact h.withRx none
  · exact h

theorem Body.AtRest.headerArrives (h : b.AtRest) (up : Bool) (d : DataHeader) : (b.headerArrives up d).AtRest := by
  have free := h.undoClaim
  unfold Body.headerArrives
  dsimp only
  rw [free.closed d.stream]
  exact free.withRx _

theorem Body.AtRest.payloadArrives (h : b.AtRest) (up : Bool) (bytes : List Byte) :
    (b.payloadArrives up bytes).AtRest := by
  unfold Body.payloadArrives
  split
  · dsimp only
    split
    · split
      · exact (h.modify _ _).withRx _
      · exact h.withRx _
    · exact h.withRx _
  · exact h

/-- With no frame in transmission none ends (R112). -/
theorem Body.AtRest.frameEnds (h : b.AtRest) (cycle : CycleNum) : (b.frameEnds cycle).AtRest := by
  rw [Body.frameEnds, h.lane]
  exact h

theorem Body.AtRest.recordFetchEnds (h : b.AtRest) (i : StreamId) (slot : Nat) (result : Option (BitVec 256)) :
    (b.recordFetchEnds i slot result).AtRest := by
  rw [Body.recordFetchEnds, h.closed i]
  exact h

theorem Body.AtRest.sendReadEnds (h : b.AtRest) (i : StreamId) (slot : Nat) (result : Option (List Byte)) :
    (b.sendReadEnds i slot result).AtRest := by
  rw [Body.sendReadEnds, h.closed i]
  exact h

theorem Body.AtRest.receiveWriteEnds (h : b.AtRest) (i : StreamId) (ok : Bool) : (b.receiveWriteEnds i ok).AtRest := by
  rw [Body.receiveWriteEnds, h.closed i]
  exact h

end

/-! ### The line -/

theorem State.FunctionSound.hear {effect : State → State} (h : s.FunctionSound) (keeps : (effect s).FunctionSound) :
    (s.hear effect).FunctionSound := by
  unfold State.hear
  split
  · exact keeps
  · exact h

/-- A frame that is acted on while the link is UP alone (R111). -/
theorem FunctionLaw.hearUp (l : FunctionLaw s) (acting : s.fn ≠ .faulted) {effect : Body → Body}
    (rings : (effect s.body).configured = s.body.configured) : (s.hearUp effect).FunctionSound := by
  refine l.sound.hear (l.sound.of_link acting (fun down => ?_) ?_)
  · simp [State.isUp, down]
  · split
    · exact s.stands_onBody rings
    · exact .refl s

/-- With the link DOWN a DATA frame is dropped at its end (R110, R111). -/
theorem FunctionLaw.dataEnds (l : FunctionLaw s) (acting : s.fn ≠ .faulted) (cls : StreamClass) (rest : List Byte)
    {decision : Reception → List Byte → Body → Body}
    (rings : ∀ r data, (decision r data s.body).configured = s.body.configured) :
    (s.dataEnds cls rest decision).FunctionSound := by
  have dropped : (s.onBody Body.undoClaim).FunctionSound :=
    l.sound.onBody acting (Body.undoClaim_configured ..) Body.AtRest.undoClaim fun _ => Body.Stopping.undoClaim
  unfold State.dataEnds
  repeat' split
  · next up =>
    refine l.sound.of_stands acting (s.stands_onBody (rings ..)) (fun _ down => ?_) fun _ _ down => ?_
    all_goals simp [State.isUp, down] at up
  · exact dropped
  · exact l.sound
  · exact l.sound

theorem FunctionLaw.signalLost (l : FunctionLaw s) (acting : s.fn ≠ .faulted) : s.signalLost.FunctionSound := by
  have down_keeps : s.bp.link = .down → s.signalLost = s.withSignal false := fun down => by
    rw [State.signalLost_eq, State.takeDown_of_down down, ite_self]
  refine l.sound.of_stands acting s.stands_signalLost (fun rested down => ?_) fun _ streams down => ?_
  · rw [down_keeps down]
    exact ⟨rested, down⟩
  · rw [down_keeps down]
    exact ⟨streams, down⟩

end

/-! ### Every command keeps the laws -/

/-- Every command keeps the laws of the function state. The laws of the link say which timers run with the link DOWN. -/
theorem exec_keeps_functionLaw {c : Instr} {s t : State} (k : LinkLaw s) (l : FunctionLaw s)
    (run : exec c s = .next t) : FunctionLaw t := by
  have event : ∀ {effect : State → State}, (s.fn ≠ .faulted → (effect s).FunctionSound) →
      (.next (s.event effect) : Outcome State Fault Refusal) = .next t → FunctionLaw t :=
    fun keeps same => Outcome.next.inj same ▸ l.event keeps
  have onBody : ∀ {effect : Body → Body}, (∀ b, (effect b).configured = b.configured) →
      (∀ b : Body, b.AtRest → (effect b).AtRest) → (∀ b : Body, b.Stopping → (effect b).Stopping) →
      (.next (s.event (State.onBody effect)) : Outcome State Fault Refusal) = .next t → FunctionLaw t :=
    fun rings rest stops => event fun acting =>
      l.sound.onBody acting (rings s.body) (rest s.body) fun _ => stops s.body
  have request : ∀ {r : AdminRecord},
      (.next (s.event (State.requestArrives r)) : Outcome State Fault Refusal) = .next t → FunctionLaw t :=
    event fun acting => l.requestArrives acting _
  have hearUp : ∀ {effect : Body → Body}, (∀ b, (effect b).configured = b.configured) →
      (.next (s.event (State.hearUp effect)) : Outcome State Fault Refusal) = .next t → FunctionLaw t :=
    fun rings => event fun acting => l.hearUp acting (rings s.body)
  have link : ∀ {effect : State → State}, (s.bp.link = .down → effect s = s) → s.Stands (effect s) →
      (.next (s.event effect) : Outcome State Fault Refusal) = .next t → FunctionLaw t :=
    fun down stands => event fun acting => l.sound.of_link acting down stands
  have hearLink : ∀ {effect : State → State}, (s.bp.link = .down → effect s = s) → s.Stands (effect s) →
      (.next (s.event (State.hear effect)) : Outcome State Fault Refusal) = .next t → FunctionLaw t :=
    fun down stands => event fun acting => l.sound.hear (l.sound.of_link acting down stands)
  cases c with
  | powerOnReset => exact Outcome.next.inj run ▸ (FunctionLaw.resetBlocks s).of_same rfl
  | reset => exact Outcome.next.inj run ▸ FunctionLaw.resetBlocks s
  | start => exact event (fun _ => l.startCommand) run
  | stop => exact event (fun _ => l.stopCommand) run
  | notify value => exact event (fun _ => l.notifyWrite value) run
  | registerWrite offset value => exact Outcome.next.inj run ▸ l.registerWrite offset value
  | controlBlockReadEnd result => exact event (fun _ => l.controlBlockRead result) run
  | adminFetchReturn slot result => exact event (fun acting => l.adminFetchEnds acting slot result) run
  | workRecordFetchReturn i slot result =>
    exact onBody (fun _ => Body.recordFetchEnds_configured ..) (fun _ h => h.recordFetchEnds i slot result)
      (fun _ h => h.recordFetchEnds i slot result) run
  | sendBufferReadReturn i slot result =>
    exact onBody (fun _ => Body.sendReadEnds_configured ..) (fun _ h => h.sendReadEnds i slot result)
      (fun _ h => h.sendReadEnds i slot result) run
  | receiveBufferWriteEnd i ok =>
    exact onBody (fun _ => Body.receiveWriteEnds_configured ..) (fun _ h => h.receiveWriteEnds i ok)
      (fun _ h => h.receiveWriteEnds i ok) run
  | completionWriteEnd ok => exact event (fun acting => l.ringWriteEnds acting _ ok) run
  | eventWriteEnd ok => exact event (fun acting => l.ringWriteEnds acting _ ok) run
  | interruptMessageWriteEnd ok => exact event (fun acting => l.ringWriteEnds acting _ ok) run
  | loadProfileReadEnd entry result => exact event (fun acting => l.profileReadEnds acting entry result) run
  | readPeerProfileWritesEnd entry ok =>
    refine event (fun acting => ?_) run
    split
    · next waits => exact l.writesEnd acting waits ok _
    · exact l.sound
  | queryStreamWritesEnd entry ok =>
    refine event (fun acting => ?_) run
    split
    · next waits => exact l.writesEnd acting waits ok _
    · exact l.sound
  | queryLinkWritesEnd entry ok =>
    refine event (fun acting => ?_) run
    split
    · next waits => exact l.writesEnd acting waits ok _
    · exact l.sound
  | openStream tag stream params => exact request run
  | closeStream tag stream => exact request run
  | abortStream tag stream => exact request run
  | flushStream tag stream => exact request run
  | resumeStream tag stream => exact request run
  | setWatch tag stream mode dir measure threshold => exact request run
  | queryStream tag stream addr => exact request run
  | linkUp tag role period timeout => exact request run
  | linkDown tag => exact request run
  | loadProfile tag addr length => exact request run
  | readPeerProfile tag addr length => exact request run
  | queryLink tag addr => exact request run
  | dataHeaderArrival header =>
    refine event (fun acting => l.sound.hear ?_) run
    split
    · exact l.sound.onBody acting (Body.headerArrives_configured ..) (Body.AtRest.headerArrives · _ _)
        fun _ h => h.headerArrives _ _
    · exact l.sound
  | dataArrivalStep bytes =>
    exact event (fun acting => l.sound.hear (l.sound.onBody acting (Body.payloadArrives_configured ..)
      (Body.AtRest.payloadArrives · _ _) fun _ h => h.payloadArrives _ _)) run
  | dataBestEffortEnd rest =>
    exact event (fun acting => l.dataEnds acting _ rest fun r data => Body.bestEffortEnds_configured _ r data _) run
  | dataScheduledEnd rest =>
    exact event (fun acting => l.dataEnds acting _ rest fun r data => Body.scheduledEnds_configured _ r data _) run
  | accept i bit => exact hearUp (fun _ => Body.modify_configured ..) run
  | defer i bit => exact hearUp (fun _ => Body.modify_configured ..) run
  | gone i => exact hearUp (fun _ => Body.goneActs_configured ..) run
  | notice i kind =>
    exact hearUp (fun _ => (Body.noticeActs_configured ..).trans (Body.addDue_configured ..)) run
  | noticeAck i kind => exact hearUp (fun _ => Body.noticeAcked_configured ..) run
  | cycleStart number => exact hearLink (State.markerArrives_of_down · _) (s.stands_markerArrives number) run
  | cycleEcho number => exact hearLink (State.echoArrives_of_down · _) (s.stands_echoArrives number) run
  | hello role period length check => exact hearLink (State.helloArrives_of_down · _) (s.stands_helloArrives _) run
  | profileChunk number bytes =>
    exact hearLink (State.chunkArrives_of_down · _ _) (s.stands_chunkArrives number bytes) run
  | profileAck number => exact hearLink (State.ackArrives_of_down · _) (s.stands_ackArrives number) run
  | farewell => exact hearLink State.farewellArrives_of_down s.stands_farewellArrives run
  | invalidFrame =>
    exact onBody Body.undoClaim_configured (fun _ h => h.undoClaim) (fun _ h => h.undoClaim) run
  | transmitFrameEnd =>
    exact onBody (Body.frameEnds_configured _) (fun _ h => h.frameEnds _) (fun _ h => h.frameEnds _) run
  | leaderPeriodExpiry => exact link State.periodExpires_of_down s.stands_periodExpires run
  | followerDeadline => exact link State.deadlinePasses_of_down s.stands_deadlinePasses run
  | helloTimerExpiry => exact link k.helloExpires_of_down s.stands_helloExpires run
  | answerTimerExpiry => exact link k.answerExpires_of_down s.stands_answerExpires run
  | bringUpTimerExpiry => exact link k.bringUpExpires_of_down s.stands_bringUpExpires run
  | lossOfSignal =>
    have fallen : FunctionLaw { s with lsig := false } := l.of_same rfl
    exact Outcome.next.inj run ▸ fallen.event fallen.signalLost
  | signalPresent =>
    have risen : FunctionLaw { s with lsig := true } := l.of_same rfl
    exact Outcome.next.inj run ▸ risen.event fun _ => (risen.of_same (t := State.signalRises _) rfl).sound

theorem step_keeps_functionLaw {s t : State} (k : LinkLaw s) (l : FunctionLaw s) (run : step s = .next t) :
    FunctionLaw t := by
  unfold step at run
  split at run
  · next c rest _ =>
    exact exec_keeps_functionLaw (s := { s with pending := rest }) (k.of_same rfl id) (l.of_same rfl) run
  · cases run
    unfold State.tick
    split
    · exact l
    · exact l.of_same rfl

/-- Settles O57: the laws of the function state are kept by every command, one event at a time. -/
theorem functionLawIsKept : Obligations.FunctionLawIsKept :=
  fun _ _ link law run => step_keeps_functionLaw link law run

end Sys2Proof.Machine
end

section
/-! SUPPORT. What the resets leave (R178), and the laws that hold of it. -/

namespace Sys2Proof.Machine

-- Elaborated in parallel, the proofs of this part wait for one another on threads that pass the check's memory limit.
set_option Elab.async false

open Sys2Proof Host

/-- After a reset every stream is CLOSED (R1). -/
theorem Body.reset_stream (i : StreamId) : Body.reset.stream i = none := by
  simp [Body.stream, Body.reset]

theorem StoreLaw.reset : StoreLaw State.reset where
  buffers i _ opened := absurd (opened.symm.trans (Body.reset_stream i)) nofun
  receiving i _ opened := absurd (opened.symm.trans (Body.reset_stream i)) nofun
  claimed := nofun
  lane := nofun

theorem BlockLaw.reset : BlockLaw State.reset where
  owned i := by
    have closed : State.reset.body.stream i = none := Body.reset_stream i
    rw [closed]
    simp [State.reset, Body.reset, ownedBy]
  owners := by simp [State.reset, Body.reset]

theorem ReservationLaw.reset : ReservationLaw State.reset where
  fits := by decide
  caused i _ opened := absurd (opened.symm.trans (Body.reset_stream i)) nofun

/-- Settles O3: the resets give every block its reset value, and every law holds of the part right after reset. -/
theorem resetsGiveEveryBlockItsResetValue : Obligations.ResetsGiveEveryBlockItsResetValue := by
  have function : FunctionLaw State.reset := FunctionLaw.resetBlocks State.reset
  have host : State.reset.Orderly := State.Orderly.resetBlocks State.reset
  obtain ⟨event, transfer, ring⟩ := State.reset.orderly_iff.mp host
  obtain ⟨idle, down⟩ := function.idle (.inl rfl)
  refine ⟨fun _ => rfl, fun _ => rfl, idle, ?_, rfl, rfl, rfl, rfl, rfl, down, rfl, rfl, rfl, rfl, rfl, rfl, rfl,
    LinkLaw.resetBlocks State.reset, function, event, transfer, ring, .reset, .reset, .reset⟩
  simp [State.reset, Body.reset, freeCount]

end Sys2Proof.Machine
end

section
/-! SUPPORT. The register window (R177), and what FAULTED leaves of it (R182). -/

namespace Sys2Proof.Machine

-- Elaborated in parallel, the proofs of this part wait for one another on threads that pass the check's memory limit.
set_option Elab.async false

open Sys2Proof Host

/-! ### Writes -/

section

variable {s : State} {offset value : Word}

@[simp] theorem functionCommand_eq (value : Word) : functionCommand value = value.toNat % 4 := by
  simp [functionCommand, BitVec.extractLsb'_toNat]

theorem State.registerWrite_function (value : Word) (s : State) :
    s.registerWrite 0x0C value = s.functionWrite value := rfl

theorem State.functionWrite_start (command : value.toNat % 4 = 1) :
    s.functionWrite value = s.event State.startCommand := by
  simp [State.functionWrite, command]

theorem State.functionWrite_stop (command : value.toNat % 4 = 2) :
    s.functionWrite value = s.event State.stopCommand := by
  simp [State.functionWrite, command]

theorem State.functionWrite_reset (command : value.toNat % 4 = 3) : s.functionWrite value = s.resetBlocks := by
  simp [State.functionWrite, command]

theorem State.functionWrite_none (command : value.toNat % 4 = 0) : s.functionWrite value = s := by
  simp [State.functionWrite, command]

/-- A write where no register takes one is ignored (R177). -/
theorem State.registerWrite_elsewhere (elsewhere : offset ∉ [0x04#32, 0x08#32, 0x0C#32, 0x10#32]) :
    s.registerWrite offset value = s := by
  simp only [List.mem_cons, List.not_mem_nil, or_false, not_or] at elsewhere
  obtain ⟨low, high, function, notify⟩ := elsewhere
  simp [State.registerWrite, low, high, function, notify]

/-! ### Reads -/

theorem FnState.code_lt (f : FnState) : f.code < 8 := by cases f <;> decide

theorem FaultCode.code_lt (c : FaultCode) : c.code < 256 := by cases c <;> decide

/-- IDENT as a number: the marks of the part around its revision level. -/
theorem State.readRegister_ident (s : State) :
    (s.readRegister 0x00).toNat = 0x49 * 2 ^ 24 + Config.revisionLevel.toNat * 2 ^ 16 + 0x1C30 := by
  have read : s.readRegister 0x00 = 0x49#8 ++ Config.revisionLevel ++ 0x1C30#16 := rfl
  rw [read, BitVec.toNat_append, BitVec.toNat_append, ← Nat.shiftLeft_add_eq_or_of_lt (by decide),
    ← Nat.shiftLeft_add_eq_or_of_lt Config.revisionLevel.isLt, Nat.shiftLeft_eq, Nat.shiftLeft_eq]
  simp only [BitVec.toNat_ofNat]
  omega

/-- FUNCTION as a number: the function state, the held STOP and the fault code. -/
theorem State.readRegister_function (s : State) : (s.readRegister 0x0C).toNat =
    s.fn.code + 8 * s.heldStop.toNat + 256 * (s.fault.map FaultCode.code).getD 0 := by
  have state := s.fn.code_lt
  have held := s.heldStop.toNat_lt
  have fault : (s.fault.map FaultCode.code).getD 0 < 256 := by
    cases s.fault with
    | none => decide
    | some c => exact c.code_lt
  have read : s.readRegister 0x0C =
      BitVec.ofNat 32 (s.fn.code + 8 * s.heldStop.toNat + 256 * (s.fault.map FaultCode.code).getD 0) := rfl
  rw [read, BitVec.toNat_ofNat, Nat.mod_eq_of_lt]
  omega

theorem State.readRegister_elsewhere (elsewhere : offset ∉ [0x00#32, 0x04#32, 0x08#32, 0x0C#32]) :
    s.readRegister offset = 0 := by
  simp only [List.mem_cons, List.not_mem_nil, or_false, not_or] at elsewhere
  obtain ⟨ident, low, high, function⟩ := elsewhere
  simp [State.readRegister, ident, low, high, function]

end

/-- Settles O6: every offset is written and read as R177 says. -/
theorem registerWindow : Obligations.RegisterWindow := by
  intro s offset value
  have status := s.readRegister_function
  have state := s.fn.code_lt
  have held := s.heldStop.toNat_lt
  have ident := s.readRegister_ident
  have revision := Config.revisionLevel.isLt
  refine ⟨rfl, rfl, fun command => ?_, fun command => ?_, fun command => ?_, fun command => ?_, rfl,
    fun elsewhere => ?_, rfl, rfl, ?_, ?_, ?_, ?_, ?_, State.readRegister_elsewhere⟩
  · exact congrArg Outcome.next (State.functionWrite_start command)
  · exact congrArg Outcome.next (State.functionWrite_stop command)
  · exact congrArg Outcome.next (State.functionWrite_reset command)
  · exact congrArg Outcome.next (State.functionWrite_none command)
  · exact congrArg Outcome.next (State.registerWrite_elsewhere elsewhere)
  · omega
  · omega
  · omega
  · have bit : (s.readRegister 0x0C).getLsbD 3 = decide ((s.readRegister 0x0C).toNat / 8 % 2 = 1) := by
      simp [BitVec.getLsbD, Nat.testBit_eq_decide_div_mod_eq]
    rw [bit, status]
    cases stop : s.heldStop
    · simp only [Bool.toNat_false, decide_eq_false_iff_not]
      omega
    · simp only [Bool.toNat_true, decide_eq_true_eq]
      omega
  · omega

/-- Settles O9: in FAULTED every event but the resets, the register writes and the moves of the input is void. -/
theorem faultedPartActsOnNothing : Obligations.FaultedPartActsOnNothing := by
  intro c s faulted
  have void : ∀ effect, (.next (s.event effect) : Outcome State Fault Refusal) = .next s := fun effect =>
    congrArg Outcome.next (State.event_faulted faulted effect)
  cases c with
  | powerOnReset => exact ⟨_, rfl, rfl, rfl⟩
  | reset => exact ⟨_, rfl, rfl, rfl⟩
  | registerWrite offset value =>
    intro beside
    by_cases notify : offset = 0x10
    · subst notify
      exact void (State.notifyWrite value)
    rcases beside with elsewhere | ⟨rfl, not_reset⟩
    · refine congrArg Outcome.next (State.registerWrite_elsewhere ?_)
      simp only [List.mem_cons, List.not_mem_nil, or_false, not_or] at elsewhere ⊢
      exact ⟨elsewhere.1, elsewhere.2.1, elsewhere.2.2, notify⟩
    · have commands : value.toNat % 4 = 0 ∨ value.toNat % 4 = 1 ∨ value.toNat % 4 = 2 := by omega
      refine congrArg Outcome.next ((State.registerWrite_function value s).trans ?_)
      rcases commands with command | command | command
      · exact State.functionWrite_none command
      · rw [State.functionWrite_start command, State.event_faulted faulted]
      · rw [State.functionWrite_stop command, State.event_faulted faulted]
  | lossOfSignal => exact congrArg Outcome.next (State.event_faulted (s := { s with lsig := false }) faulted _)
  | signalPresent => exact congrArg Outcome.next (State.event_faulted (s := { s with lsig := true }) faulted _)
  | _ => exact void _

/-! ### A failed access of the Ring Interface -/

/-- A FAULTED part does not settle. -/
theorem State.settle_faulted (code : FaultCode) (s : State) : (s.faulted code).settle = s.faulted code :=
  State.settle_stands nofun nofun

theorem State.ringWriteEnds_failed {s : State} {p : RingWrite → Bool} {w : RingWrite}
    (found : s.body.ringWrites.find? p = some w) : s.ringWriteEnds p false = s.faulted .postWrite := by
  simp [State.ringWriteEnds, found]

theorem State.adminFetchEnds_failed {s : State} {ring : HostRing} {slot : Nat} (running : s.fn = .running)
    (held : s.body.admin = some ring) (inFlight : slot < ring.fetches.length) :
    s.adminFetchEnds slot none = s.faulted .adminFetch := by
  simp [State.adminFetchEnds, held, inFlight, running]

/-- Settles O10: a failed ring write or admin fetch ends in the fault, and a faulted part does not settle. -/
theorem failedRingAccessFaultsThePart : Obligations.FailedRingAccessFaultsThePart := by
  intro s w serving
  have acting : s.fn ≠ .faulted := by rcases serving with fn | fn <;> simp [fn]
  have faults : ∀ {effect : State → State} {code : FaultCode}, effect s = s.faulted code →
      (.next (s.event effect) : Outcome State Fault Refusal) = .next (s.faulted code) := fun same => by
    rw [State.event_eq acting, same, State.settle_faulted]
  exact ⟨fun _ found _ => faults (State.ringWriteEnds_failed found),
    fun found => faults (State.ringWriteEnds_failed found), fun found => faults (State.ringWriteEnds_failed found),
    fun _ _ running held inFlight => faults (State.adminFetchEnds_failed running held inFlight)⟩

end Sys2Proof.Machine
end

section
/-! SUPPORT. START and the control block (R150, R151, R179). -/

namespace Sys2Proof.Machine

-- Elaborated in parallel, the proofs of this part wait for one another on threads that pass the check's memory limit.
set_option Elab.async false

open Sys2Proof Host

/-! ### The fields of the control block -/

section

variable (w : BitVec 1024) (c : Fin 4)

theorem ControlBlock.read_base : (ControlBlock.read w).bases.getD c 0 = addrAt w (16 + 8 * c) := by
  fin_cases c <;> rfl

theorem ControlBlock.read_size : (ControlBlock.read w).sizes.getD c 0 = fieldAt w (110 + 2 * c) 2 := by
  fin_cases c <;> rfl

theorem ControlBlock.read_intAddr : (ControlBlock.read w).intAddrs.getD c 0 = addrAt w (48 + 8 * c) := by
  fin_cases c <;> rfl

theorem ControlBlock.read_intValue : (ControlBlock.read w).intValues.getD c 0 = wordAt w (88 + 4 * c) := by
  fin_cases c <;> rfl

end

/-- Of four values the first so many. -/
theorem all_take_four {α : Type} {n : Nat} (few : n ≤ 4) (p : α → Bool) (f : Nat → α) :
    ([f 0, f 1, f 2, f 3].take n).all p = true ↔ ∀ c < n, p (f c) = true := by
  have four : [f 0, f 1, f 2, f 3] = (List.range 4).map f := rfl
  rw [four, ← List.map_take, List.take_range, min_eq_left few]
  simp

theorem aligned64_iff (a : Addr) : aligned64 a = true ↔ a.toNat % 64 = 0 := by simp [aligned64]

theorem ControlBlock.valid_iff (w : BitVec 1024) : (ControlBlock.read w).valid = true ↔
    1 ≤ (byteAt w 120).toNat ∧ (byteAt w 120).toNat ≤ 4 ∧ validSize (fieldAt w 108 2) = true ∧
      validSize (fieldAt w 118 2) = true ∧ aligned64 (addrAt w 0) = true ∧ aligned64 (addrAt w 8) = true ∧
      ∀ c < (byteAt w 120).toNat,
        validSize (fieldAt w (110 + 2 * c) 2) = true ∧ aligned64 (addrAt w (16 + 8 * c)) = true := by
  have ringCount : (ControlBlock.read w).ringCount = (byteAt w 120).toNat := rfl
  by_cases few : (byteAt w 120).toNat ≤ 4
  · have sizes : ((ControlBlock.read w).sizes.take (byteAt w 120).toNat).all validSize = true ↔ _ :=
      all_take_four few validSize fun c => fieldAt w (110 + 2 * c) 2
    have bases : ((ControlBlock.read w).bases.take (byteAt w 120).toNat).all aligned64 = true ↔ _ :=
      all_take_four few aligned64 fun c => addrAt w (16 + 8 * c)
    simp only [ControlBlock.valid, Bool.and_eq_true, decide_eq_true_eq, ringCount, sizes, bases, forall_and]
    simp only [ControlBlock.read, and_assoc]
    exact ⟨fun ⟨one, four, admin, event, sized, adminBase, eventBase, based⟩ =>
        ⟨one, four, admin, event, adminBase, eventBase, sized, based⟩,
      fun ⟨one, four, admin, event, adminBase, eventBase, sized, based⟩ =>
        ⟨one, four, admin, event, sized, adminBase, eventBase, based⟩⟩
  · simp [ControlBlock.valid, ControlBlock.read, few]

/-! ### START -/

section

variable {s : State}

theorem State.startCommand_of_off (off : s.fn = .off) : s.startCommand =
    if (s.cbHi ++ s.cbLo).toNat % 64 = 0 then { s with fn := .starting } else s.faulted .badControlBlock := by
  have aligned : aligned64 s.controlBlockAddress = decide ((s.cbHi ++ s.cbLo).toNat % 64 = 0) := rfl
  rw [State.startCommand]
  simp only [off, aligned, decide_eq_true_eq]
  rfl

theorem State.startCommand_elsewhere (on : s.fn ≠ .off) : s.startCommand = s := by
  unfold State.startCommand
  split
  · contradiction
  all_goals rfl

/-! ### The end of the control block read -/

theorem State.controlBlockRead_elsewhere (elsewhere : s.fn ≠ .starting) (r : Option (BitVec 1024)) :
    s.controlBlockRead r = s := if_neg elsewhere

/-- The part once a valid control block has been read (R151). -/
def State.started (w : BitVec 1024) (s : State) : State :=
  { s with fn := .running, heldStop := false, body := s.body.configure (ControlBlock.read w) }

theorem State.controlBlockRead_error (starting : s.fn = .starting) :
    s.controlBlockRead none = s.faulted .badControlBlock := if_pos starting

theorem State.controlBlockRead_invalid {w : BitVec 1024} (starting : s.fn = .starting)
    (invalid : (ControlBlock.read w).valid = false) : s.controlBlockRead (some w) = s.faulted .badControlBlock := by
  simp [State.controlBlockRead, starting, invalid]

theorem State.controlBlockRead_valid {w : BitVec 1024} (starting : s.fn = .starting)
    (valid : (ControlBlock.read w).valid = true) :
    s.controlBlockRead (some w) = if s.heldStop then (s.started w).applyStop else s.started w := by
  rw [State.controlBlockRead, if_pos starting]
  exact if_pos valid

theorem State.stopCommand_running (running : s.fn = .running) : s.stopCommand = s.applyStop := by
  rw [State.stopCommand]
  simp only [running]

theorem State.started_completion (w : BitVec 1024) (s : State) (c : Fin 4) : (s.started w).body.completion[c] =
    if c.val < (byteAt w 120).toNat then some
      { ring :=
          { base := addrAt w (16 + 8 * c.val), size := fieldAt w (110 + 2 * c.val) 2, put := 0, freed := 0
            phase := true, armed := false, intAddr := addrAt w (48 + 8 * c.val)
            intValue := wordAt w (88 + 4 * c.val) }
        waiting := [] }
    else none := by
  rw [← ControlBlock.read_base, ← ControlBlock.read_size, ← ControlBlock.read_intAddr, ← ControlBlock.read_intValue]
  simp [State.started, Body.configure, PartRing.fresh, ControlBlock.read]

end

/-- Settles O4: by the function state that START and the end of the read find. -/
theorem startReadsTheControlBlock : Obligations.StartReadsTheControlBlock := by
  have event : ∀ {s t : State} {effect : State → State}, s.fn ≠ .faulted → effect s = t →
      (.next (s.event effect) : Outcome State Fault Refusal) = .next t.settle := fun acting same => by
    rw [State.event_eq acting, same]
  have still : ∀ {s t : State} {effect : State → State}, s.fn ≠ .faulted → effect s = t → t.fn ≠ .running →
      t.fn ≠ .stopping → (.next (s.event effect) : Outcome State Fault Refusal) = .next t :=
    fun acting same not_running not_stopping =>
      (event acting same).trans (by rw [State.settle_stands not_running not_stopping])
  have void : ∀ {s : State} {effect : State → State}, effect s = s → s.fn ≠ .running → s.fn ≠ .stopping →
      (.next (s.event effect) : Outcome State Fault Refusal) = .next s := by
    intro s effect same not_running not_stopping
    by_cases faulted : s.fn = .faulted
    · rw [State.event_faulted faulted]
    · exact still faulted same not_running not_stopping
  refine ⟨fun s => ⟨fun off aligned => ?_, fun off unaligned => ?_, fun fn => ?_, fun fn => ?_⟩,
    fun s w => ⟨?_, fun starting => ?_, fun starting invalid => ?_, fun starting valid => ?_, fun r fn => ?_,
      fun r fn => ?_⟩⟩
  · exact still (by simp [off]) ((State.startCommand_of_off off).trans (if_pos aligned)) nofun nofun
  · exact still (by simp [off]) ((State.startCommand_of_off off).trans (if_neg unaligned)) nofun nofun
  · have elsewhere : s.fn ≠ .off ∧ s.fn ≠ .running ∧ s.fn ≠ .stopping := by rcases fn with fn | fn <;> simp [fn]
    exact void (State.startCommand_elsewhere elsewhere.1) elsewhere.2.1 elsewhere.2.2
  · have elsewhere : s.fn ≠ .off ∧ s.fn ≠ .faulted := by rcases fn with fn | fn <;> simp [fn]
    exact event elsewhere.2 (State.startCommand_elsewhere elsewhere.1)
  · simp only [ControlBlock.valid_iff, validSize_iff, aligned64_iff]
  · exact still (by simp [starting]) (State.controlBlockRead_error starting) nofun nofun
  · exact still (by simp [starting]) (State.controlBlockRead_invalid starting invalid) nofun nofun
  · have read := State.controlBlockRead_valid starting valid
    refine ⟨s.started w, rfl, rfl, rfl, rfl, rfl, rfl, rfl, rfl, rfl, rfl, rfl, s.started_completion w, ?_, ?_⟩
    · intro free
      exact event (by simp [starting]) (read.trans (if_neg (by simp [free])))
    · intro held
      have stop := event (s := s.started w) (effect := State.stopCommand) nofun (State.stopCommand_running rfl)
      exact (event (by simp [starting]) (read.trans (if_pos held))).trans stop.symm
  · have elsewhere : s.fn ≠ .starting ∧ s.fn ≠ .running ∧ s.fn ≠ .stopping := by rcases fn with fn | fn <;> simp [fn]
    exact void (State.controlBlockRead_elsewhere elsewhere.1 r) elsewhere.2.1 elsewhere.2.2
  · have elsewhere : s.fn ≠ .starting ∧ s.fn ≠ .faulted := by rcases fn with fn | fn <;> simp [fn]
    exact event elsewhere.2 (State.controlBlockRead_elsewhere elsewhere.1 r)

end Sys2Proof.Machine
end

section
/-! SUPPORT. STOP (R24, R147, R169, R180). -/

namespace Sys2Proof.Machine

-- Elaborated in parallel, the proofs of this part wait for one another on threads that pass the check's memory limit.
set_option Elab.async false

open Sys2Proof Host

/-! ### The streams -/

/-- An ABORTING stream after the loss of the link: its records, its ring and its held completion stand, and it has no
SENT packet that it did not have before. -/
structure Stream.Spared (st st' : Stream) : Prop where
  aborting : st'.state = .aborting
  sent : st.sentIndex = none → st'.sentIndex = none
  records : (st'.ring, st'.sends, st'.receives, st'.held) = (st.ring, st.sends, st.receives, st.held)

/-- The streams of a body, all ABORTING, after the loss of the link. -/
structure Body.Spares (b b' : Body) : Prop where
  closed : ∀ i, b'.stream i = none ↔ b.stream i = none
  opened : ∀ i st st', b.stream i = some st → b'.stream i = some st' → st.Spared st'

section

variable {s : State} {b b' : Body}

theorem Body.Stopping.spares_of_streams (stopping : b.Stopping) (same : b'.streams = b.streams) : b.Spares b' := by
  have alike := Body.stream_of_streams_eq same
  refine ⟨fun i => by rw [alike], fun i st st' was now => ?_⟩
  rw [alike, was] at now
  cases now
  exact ⟨stopping i st was, id, rfl⟩

theorem Stream.lostLink_spared {st : Stream} (aborting : st.state = .aborting) (w : Option Watch) :
    st.Spared { st.lostLink with watch := w } := by
  have stays : ¬st.mayHalt = true := Stream.not_mayHalt (.inr (.inr (.inl aborting)))
  refine ⟨?_, fun _ => st.lostLink_sentIndex, ?_⟩
  · simp [Stream.lostLink, stays, aborting]
  · simp [Stream.lostLink, stays]

/-- Whatever state the link is in, STOP spares the streams that it has made ABORTING. -/
theorem State.takeDownHere_spares (stopping : s.body.Stopping) (status : Status) :
    s.body.Spares (s.takeDownHere status).body := by
  have down : s.body.Spares (s.takeDown .requested status).body := by
    cases link : s.bp.link with
    | down =>
      rw [State.takeDown_of_down link]
      exact stopping.spares_of_streams rfl
    | calling =>
      rw [State.takeDown_bringing (.inl link)]
      exact stopping.spares_of_streams State.bringUpFails_streams
    | exchanging =>
      rw [State.takeDown_bringing (.inr link)]
      exact stopping.spares_of_streams State.bringUpFails_streams
    | up =>
      rw [State.takeDown_up link]
      obtain ⟨closed, lost⟩ := s.leaveUp_streams .requested
      refine ⟨closed, fun i st st' was now => ?_⟩
      obtain ⟨w, same⟩ := lost i st was
      rw [same] at now
      cases now
      exact Stream.lostLink_spared (stopping i st was) w
  unfold State.takeDownHere
  dsimp only
  split
  · exact ⟨down.closed, down.opened⟩
  · exact down

/-- STOP makes of an open stream what aborting it makes, unless it is ABORTING already (R24, R180). -/
theorem State.abortingAll_stream (s : State) (i : StreamId) : s.abortingAll.body.stream i =
    (s.body.stream i).map fun st => st.stored (if st.state = .aborting then st else st.beginAbort) := by
  rw [State.abortingAll_body, Body.abortAll, Body.modifyAll_stream]

theorem Stream.stopped_records (st : Stream) :
    let stopped := st.stored (if st.state = .aborting then st else st.beginAbort)
    (st.state ≠ .aborting → stopped.sentIndex = none) ∧
      (stopped.ring, stopped.sends, stopped.receives, stopped.held) = (st.ring, st.sends, st.receives, st.held) := by
  by_cases aborting : st.state = .aborting
  · simp [aborting]
  · have sent : st.beginAbort.sentIndex = none := st.abandon_sentIndex
    simp only [if_neg aborting]
    exact ⟨fun _ => sent, by simp [Stream.beginAbort]⟩

/-! ### The requests -/

/-- Taking the link down completes no request but the LINK_UP that is pending. -/
theorem State.takeDownHere_entry {e : Entry} (mem : e ∈ s.body.table) (status : Status) :
    e ∈ (s.takeDownHere status).body.table ∨
      e.held = none ∧ e.complete status 0 ∈ (s.takeDownHere status).body.table := by
  have fails : e ∈ (s.bringUpFails .requested status).body.table ∨
      e.held = none ∧ e.complete status 0 ∈ (s.bringUpFails .requested status).body.table := by
    simp only [State.bringUpFails, Body.completePending_eq]
    by_cases pending : e.held = none ∧ s.bp.pendingLinkUp = some e.id
    · exact .inr ⟨pending.1, List.mem_map.mpr ⟨e, mem, if_pos pending⟩⟩
    · exact .inl (List.mem_map.mpr ⟨e, mem, if_neg pending⟩)
  have same : (s.takeDownHere status).body.table = (s.takeDown .requested status).body.table := by
    unfold State.takeDownHere
    dsimp only
    split <;> rfl
  rw [same]
  cases link : s.bp.link with
  | down => exact .inl (by rwa [State.takeDown_of_down link])
  | calling => rwa [State.takeDown_bringing (.inl link)]
  | exchanging => rwa [State.takeDown_bringing (.inr link)]
  | up => exact .inl (by rwa [State.takeDown_up link, State.leaveUp_table])

/-- A request that is not being completed is left by the completion of others. -/
theorem Body.completeIf_entry {e : Entry} {p : Entry → Bool} (mem : e ∈ b.table) (stays : e.held ≠ none)
    (status : Status) (result : Nat) : e ∈ (b.completeIf p status result).table :=
  List.mem_map.mpr ⟨e, mem, if_neg fun h => stays h.1⟩

theorem Body.completeIf_completes {e : Entry} {p : Entry → Bool} (mem : e ∈ b.table) (in_flight : e.held = none)
    (picked : p e = true) (status : Status) (result : Nat) :
    e.complete status result ∈ (b.completeIf p status result).table :=
  List.mem_map.mpr ⟨e, mem, if_pos ⟨in_flight, picked⟩⟩

/-! ### The link -/

theorem State.takeDownHere_of_down (down : s.bp.link = .down) (status : Status) : s.takeDownHere status = s := by
  simp [State.takeDownHere, State.takeDown_of_down down, State.isUp, down]

theorem State.takeDownHere_link (status : Status) (s : State) : (s.takeDownHere status).bp.link = .down := by
  unfold State.takeDownHere
  dsimp only
  split <;> exact State.takeDown_down .requested status s

theorem State.takeDownHere_lastDown (on : s.bp.link ≠ .down) (status : Status) :
    (s.takeDownHere status).bp.lastDown = some .requested := by
  have down : (s.takeDown .requested status).bp.lastDown = some .requested := by
    cases link : s.bp.link with
    | down => exact absurd link on
    | calling => rw [State.takeDown_bringing (.inl link)]; rfl
    | exchanging => rw [State.takeDown_bringing (.inr link)]; rfl
    | up => rw [State.takeDown_up link]; rfl
  unfold State.takeDownHere
  dsimp only
  split <;> exact down

/-- From UP a FAREWELL is due, and nothing else (R147). -/
theorem State.takeDownHere_lt (up : s.bp.link = .up) (status : Status) :
    (s.takeDownHere status).body.lt = { s.body.lt.stop with fresh := [.farewell] } := by
  have is_up : s.isUp = true := by simp [State.isUp, up]
  rw [State.takeDownHere, State.takeDown_up up, if_pos is_up]
  rfl

theorem Body.abortAll_table (b : Body) : b.abortAll.table = b.table := Body.modifyAll_table ..

theorem Body.abortAll_admin (b : Body) : b.abortAll.admin = b.admin :=
  foldl_keeps Body.admin (fun _ _ => Body.modify_admin ..) _ b

theorem Body.abortAll_fresh (b : Body) : b.abortAll.lt.fresh = b.lt.fresh := by
  rw [Body.abortAll, Body.modifyAll]
  exact foldl_keeps (fun b => b.lt.fresh) (fun _ _ => Body.modify_fresh ..) _ b

/-! ### STOP as it is applied -/

theorem State.applyStop_bp (s : State) : s.applyStop.bp = (s.abortingAll.takeDownHere .aborted).bp := by
  rw [State.applyStop_eq]
  rfl

theorem State.applyStop_lt (s : State) : s.applyStop.body.lt = (s.abortingAll.takeDownHere .aborted).body.lt := by
  rw [State.applyStop_eq]
  rfl

theorem State.applyStop_table (s : State) : s.applyStop.body.table =
    ((s.abortingAll.takeDownHere .aborted).body.completeIf (fun e => e.work == Work.none) .aborted 0).table := by
  rw [State.applyStop_eq]
  rfl

theorem State.applyStop_stream (s : State) (i : StreamId) :
    s.applyStop.body.stream i = (s.abortingAll.takeDownHere .aborted).body.stream i := by
  rw [State.applyStop_eq]
  rfl

theorem State.applyStop_fn (s : State) : s.applyStop.fn = .stopping :=
  congrArg Prod.fst (s.abortingAll.stands_takeDownHere .aborted).function

theorem State.applyStop_admin (s : State) : s.applyStop.body.admin = s.body.admin.map HostRing.discard := by
  have same : s.applyStop.body.admin = (s.abortingAll.takeDownHere .aborted).body.admin.map HostRing.discard := by
    rw [State.applyStop_eq]
    rfl
  rw [same, State.takeDownHere_admin, State.abortingAll_body, Body.abortAll_admin]

theorem State.abortingAll_stopping (s : State) : s.abortingAll.body.Stopping := by
  rw [State.abortingAll_body]
  exact Body.abortAll_stopping s.body

theorem State.applyStop_closed (s : State) (i : StreamId) :
    s.applyStop.body.stream i = none ↔ s.body.stream i = none := by
  have closed := (State.takeDownHere_spares s.abortingAll_stopping .aborted).closed i
  rwa [State.abortingAll_stream, Option.map_eq_none_iff, ← State.applyStop_stream] at closed

theorem State.applyStop_opened {i : StreamId} {st st' : Stream} (opened : s.body.stream i = some st)
    (now : s.applyStop.body.stream i = some st') :
    st'.state = .aborting ∧ (st.state ≠ .aborting → st'.sentIndex = none) ∧ st'.ring = st.ring ∧
      st'.sends = st.sends ∧ st'.receives = st.receives ∧ st'.held = st.held := by
  have was := s.abortingAll_stream i
  rw [opened] at was
  rw [State.applyStop_stream] at now
  obtain ⟨aborting, sent, records⟩ :=
    (State.takeDownHere_spares s.abortingAll_stopping .aborted).opened i _ st' was now
  obtain ⟨abandoned, stands⟩ := st.stopped_records
  have same := records.trans stands
  simp only [Prod.mk.injEq] at same
  obtain ⟨ring, sends, receives, held⟩ := same
  exact ⟨aborting, fun not_aborting => sent (abandoned not_aborting), ring, sends, receives, held⟩

theorem State.applyStop_of_down (down : s.bp.link = .down) :
    s.applyStop.bp = s.bp ∧ s.applyStop.body.lt.fresh = s.body.lt.fresh := by
  have same := State.takeDownHere_of_down (s := s.abortingAll) down .aborted
  rw [State.applyStop_bp, State.applyStop_lt, same, State.abortingAll_body, Body.abortAll_fresh]
  exact ⟨rfl, rfl⟩

theorem State.applyStop_of_up (up : s.bp.link = .up) :
    s.applyStop.body.lt.fresh = [.farewell] ∧ s.applyStop.body.lt.lane = none := by
  rw [State.applyStop_lt, State.takeDownHere_lt (s := s.abortingAll) up .aborted]
  exact ⟨rfl, rfl⟩

theorem State.abortingAll_table (s : State) : s.abortingAll.body.table = s.body.table := by
  rw [State.abortingAll_body, Body.abortAll_table]

/-- A request with no memory transfer in flight completes, with its bring-up or by itself (R180). -/
theorem State.applyStop_completes {e : Entry} (mem : e ∈ s.body.table) (in_flight : e.held = none)
    (idle : e.work = Work.none) : e.complete .aborted 0 ∈ s.applyStop.body.table := by
  rw [← State.abortingAll_table] at mem
  rw [State.applyStop_table]
  rcases State.takeDownHere_entry mem .aborted with left | ⟨-, completed⟩
  · exact Body.completeIf_completes left in_flight (by simp [idle]) .aborted 0
  · exact Body.completeIf_entry completed nofun .aborted 0

theorem State.applyStop_leaves {e : Entry} (mem : e ∈ s.body.table) (held : e.held ≠ none) :
    e ∈ s.applyStop.body.table := by
  rw [← State.abortingAll_table] at mem
  rw [State.applyStop_table]
  rcases State.takeDownHere_entry mem .aborted with left | ⟨in_flight, -⟩
  · exact Body.completeIf_entry left held .aborted 0
  · exact absurd in_flight held

end

/-- Settles O5: by the function state that STOP finds; applied, through what it does to the streams, the requests and
the link in turn. -/
theorem stopIsHeldOrApplied : Obligations.StopIsHeldOrApplied := by
  intro s
  have event : ∀ {t : State}, s.fn ≠ .faulted → s.stopCommand = t → exec .stop s = .next t.settle := fun acting same =>
    congrArg Outcome.next ((State.event_eq acting _).trans (congrArg State.settle same))
  refine ⟨fun fn => ?_, fun stopping => ?_, fun starting => ?_, fun running => ?_⟩
  · rcases fn with off | faulted
    · refine (event (t := s) (by simp [off]) (by simp [State.stopCommand, off])).trans ?_
      rw [State.settle_stands (by simp [off]) (by simp [off])]
    · exact congrArg Outcome.next (State.event_faulted faulted _)
  · exact event (by simp [stopping]) (by simp [State.stopCommand, stopping])
  · have held : s.stopCommand = { s with heldStop := true } := by simp [State.stopCommand, starting]
    refine (event (by simp [starting]) held).trans ?_
    rw [State.settle_stands] <;> simp [starting]
  · refine ⟨s.applyStop, event (by simp [running]) (State.stopCommand_running running), s.applyStop_fn,
      s.applyStop_closed, fun _ _ _ => State.applyStop_opened, ?_, fun on => ?_, State.applyStop_of_down,
      State.applyStop_of_up, fun _ => State.applyStop_completes, fun _ => State.applyStop_leaves, s.applyStop_admin⟩
    · rw [State.applyStop_bp, State.takeDownHere_link]
    · rw [State.applyStop_bp]
      exact State.takeDownHere_lastDown (s := s.abortingAll) on .aborted

end Sys2Proof.Machine
end

section
/-! SUPPORT. The layouts of the snapshots (11.4; R44, R64, R83, R92, R130, R148, R165): fields of bytes that stand one
after another, and the bits of flag bytes. -/

namespace Sys2Proof.Machine

-- Elaborated in parallel, the proofs of this part wait for one another on threads that pass the check's memory limit.
set_option Elab.async false

open Sys2Proof Host

/-! ### Fields of bytes one after another -/

section

variable {α : Type} {a b : List α}

/-- A field that lies beyond the first bytes. -/
theorem field_beyond {n : Nat} (width : a.length = n) (k m : Nat) :
    ((a ++ b).drop (n + k)).take m = (b.drop k).take m := by
  rw [← width, List.drop_append, List.drop_eq_nil_of_le (Nat.le_add_right _ _), List.nil_append,
    Nat.add_sub_cancel_left]

/-- A field that lies within the first bytes. -/
theorem field_within {k m : Nat} (inside : k + m ≤ a.length) : ((a ++ b).drop k).take m = (a.drop k).take m := by
  rw [List.drop_append_of_le_length (by omega), List.take_append_of_le_length]
  rw [List.length_drop]
  omega

/-- The field that the first bytes are. -/
theorem field_first {n : Nat} (width : a.length = n) : ((a ++ b).drop 0).take n = a := by
  rw [List.drop_zero, ← width, List.take_left]

/-- The byte of a field of one byte. -/
theorem byte_of_field {shot : List Byte} {k : Nat} {x : Byte} (field : (shot.drop k).take 1 = [x]) :
    shot.getD k 0 = x := by
  have here := congrArg (·[0]?) field
  rw [List.getD_eq_getElem?_getD]
  simp only [List.getElem?_take_of_lt Nat.zero_lt_one, List.getElem?_drop, Nat.add_zero] at here
  rw [here]
  rfl

/-- The fields of one width that items of a list take. -/
theorem field_of_items {β : Type} {f : β → List α} {n : Nat} (width : ∀ x, (f x).length = n) (rest : List α)
    (items : List β) (k : Nat) (inside : k < items.length) :
    ((items.flatMap f ++ rest).drop (n * k)).take n = f items[k] := by
  induction items generalizing k with
  | nil => exact absurd inside (Nat.not_lt_zero k)
  | cons x items ih =>
    rw [List.flatMap_cons, List.append_assoc]
    cases k with
    | zero => exact field_first (width x)
    | succ k =>
      rw [Nat.mul_succ, Nat.add_comm, field_beyond (width x), ih k (by simpa using inside)]
      rfl

end

theorem le_zero (n : Nat) : le n 0 = List.replicate n 0 := by
  induction n with
  | zero => rfl
  | succ n ih => rw [le, Nat.zero_div, ih]; rfl

/-! ### Flags -/

theorem flags_lt (bits : List Bool) : flags bits < 2 ^ bits.length := by
  induction bits with
  | nil => exact Nat.one_pos
  | cons b bits ih =>
    have bit := b.toNat_lt
    rw [flags, List.length_cons, Nat.pow_succ]
    omega

/-- Every flag is a bit of the number, whatever stands above the flags. -/
theorem testBit_flags {bits : List Bool} {k : Nat} (inside : k < bits.length) (above : Nat) :
    (flags bits + 2 ^ bits.length * above).testBit k = bits[k] := by
  induction bits generalizing k with
  | nil => exact absurd inside (Nat.not_lt_zero k)
  | cons b bits ih =>
    have split : flags (b :: bits) + 2 ^ (b :: bits).length * above =
        b.toNat + 2 * (flags bits + 2 ^ bits.length * above) := by
      rw [flags, List.length_cons, Nat.pow_succ, Nat.mul_add, Nat.add_assoc]
      ring
    have bit := b.toNat_lt
    rw [split]
    cases k with
    | zero => cases b <;> simp [Nat.testBit_zero, Nat.add_mod]
    | succ k =>
      have half : (b.toNat + 2 * (flags bits + 2 ^ bits.length * above)) / 2 =
          flags bits + 2 ^ bits.length * above := by omega
      rw [Nat.testBit_succ, half, ih (by simpa using inside)]
      rfl

theorem getLsbD_flags {bits : List Bool} {k : Nat} (inside : k < bits.length) (narrow : bits.length ≤ 8) (above : Nat) :
    (BitVec.ofNat 8 (flags bits + 2 ^ bits.length * above)).getLsbD k = bits[k] := by
  rw [BitVec.getLsbD_ofNat, testBit_flags inside above, decide_eq_true (by omega), Bool.true_and]

end Sys2Proof.Machine
end

section
/-! SUPPORT. The snapshot of QUERY_LINK field by field (R148, R165, R173). -/

namespace Sys2Proof.Machine

-- Elaborated in parallel, the proofs of this part wait for one another on threads that pass the check's memory limit.
set_option Elab.async false

open Sys2Proof Host

/-- Bytes 0 to 33: the link, the cycle engine, the store and the profiles. -/
def State.linkBytes (s : State) : List Byte :=
  [BitVec.ofNat 8 s.bp.link.code, BitVec.ofNat 8 ((s.bp.lastDown.map DownCause.code).getD 0),
    BitVec.ofNat 8 (s.bp.signal.toNat + 2 * (s.ce.role.map Role.code).getD 0),
    BitVec.ofNat 8 s.ce.sync.code, BitVec.ofNat 8 s.ce.coasting, BitVec.ofNat 8 s.ce.echoMiss] ++
  (le 2 ((s.ce.period.map Period.us).getD 0) ++ (le 2 s.ce.inForce.us ++
  (le 2 s.ce.cycle.toNat ++ (le 2 s.body.reservedSum ++ (le 2 s.body.lt.budget ++
  ([BitVec.ofNat 8 s.body.lt.notices.length, BitVec.ofNat 8 (freeCount s.body.blocks),
    BitVec.ofNat 8 s.body.table.length, BitVec.ofNat 8 s.body.events.length] ++
  (le 2 s.bp.localProfile.length ++ (le 2 ((s.bp.peerProfile.map List.length).getD 0) ++
  (le 4 (checkValue s.bp.localProfile).toNat ++ (le 4 s.bringUpLeft ++
    [s.bp.outgoingByte, s.bp.incomingByte]))))))))))

/-- Bytes 34 to 39: the admin ring; zeros where it is not configured. -/
def adminRingBytes : Option HostRing → List Byte
  | some r => le 2 r.posted ++ le 2 r.taken ++ le 2 r.fetchPos
  | none => le 6 0

/-- Bytes 80 to 87: the event ring; zeros where it is not configured. -/
def eventRingBytes : Option PartRing → List Byte
  | some r => r.queryBytes 0
  | none => le 8 0

section

variable {s : State}

theorem State.linkSnapshot_eq (s : State) : s.linkSnapshot =
    s.linkBytes ++ (adminRingBytes s.body.admin ++ (le 8 0 ++ (s.body.completion.toList.flatMap completionRingBytes ++
      (eventRingBytes s.body.event ++ le 40 0)))) := by
  simp only [State.linkBytes, ← List.append_assoc]
  rfl

theorem State.linkBytes_length (s : State) : s.linkBytes.length = 34 := by simp [State.linkBytes]

theorem adminRingBytes_length (r : Option HostRing) : (adminRingBytes r).length = 6 := by
  cases r <;> simp [adminRingBytes]

theorem eventRingBytes_length (r : Option PartRing) : (eventRingBytes r).length = 8 := by
  cases r <;> simp [eventRingBytes]

theorem completionBytes_length (rings : Vector (Option CompletionRing) 4) :
    (rings.toList.flatMap completionRingBytes).length = 32 := by
  simp [List.length_flatMap]

/-! ### The fields -/

/-- A field of the bytes before the rings. -/
theorem State.linkSnapshot_front {k n : Nat} (inside : k + n ≤ 34) :
    (s.linkSnapshot.drop k).take n = (s.linkBytes.drop k).take n := by
  rw [State.linkSnapshot_eq]
  exact field_within (by rwa [State.linkBytes_length])

theorem State.linkSnapshot_admin (s : State) : (s.linkSnapshot.drop 34).take 6 = adminRingBytes s.body.admin := by
  rw [State.linkSnapshot_eq, field_beyond s.linkBytes_length 0, field_first (adminRingBytes_length _)]

/-- A field behind the admin ring. -/
theorem State.linkSnapshot_behind (s : State) (k n : Nat) : (s.linkSnapshot.drop (40 + k)).take n =
    ((le 8 0 ++ (s.body.completion.toList.flatMap completionRingBytes ++ (eventRingBytes s.body.event ++ le 40 0))).drop
      k).take n := by
  rw [State.linkSnapshot_eq, show 40 + k = 34 + (6 + k) by omega, field_beyond s.linkBytes_length,
    field_beyond (adminRingBytes_length _)]

theorem State.linkSnapshot_completion (s : State) (c : Fin 4) :
    (s.linkSnapshot.drop (48 + 8 * c.val)).take 8 = completionRingBytes s.body.completion[c] := by
  rw [show 48 + 8 * c.val = 40 + (8 + 8 * c.val) by omega, State.linkSnapshot_behind, field_beyond (le_length 8 0),
    field_of_items completionRingBytes_length _ _ c.val (by simp)]
  rfl

theorem State.linkSnapshot_event (s : State) : (s.linkSnapshot.drop 80).take 8 = eventRingBytes s.body.event := by
  rw [s.linkSnapshot_behind 40 8, field_beyond (le_length 8 0) 32, field_beyond (completionBytes_length _) 0,
    field_first (eventRingBytes_length _)]

theorem State.linkSnapshot_rest (s : State) : (s.linkSnapshot.drop 88).take 40 = le 40 0 := by
  rw [s.linkSnapshot_behind 48 40, field_beyond (le_length 8 0) 40, field_beyond (completionBytes_length _) 8,
    field_beyond (eventRingBytes_length _) 0]
  rfl

theorem PartRing.queryBytes_eq (waiting : Nat) (r : PartRing) : r.queryBytes waiting =
    le 2 r.put ++ le 2 r.freed ++ le 2 (r.size - 1 - ringSub r.size r.put r.freed) ++
      [BitVec.ofNat 8 ((if r.phase then 1 else 0) + (if r.armed then 2 else 0)), BitVec.ofNat 8 waiting] := by
  have flagged : flags [r.phase, r.armed] = (if r.phase then 1 else 0) + (if r.armed then 2 else 0) := by
    cases r.phase <;> cases r.armed <;> rfl
  rw [PartRing.queryBytes, flagged]
  rfl

/-- A time reported in ms is less than 1 ms off, however it is rounded. -/
theorem toMs_near (us : Nat) : us < 1000 * toMs us + 1000 ∧ 1000 * toMs us < us + 1000 := by
  unfold toMs
  split
  · next up => have part := up.1; omega
  · omega

end

end Sys2Proof.Machine
end

section
/-! SUPPORT. The snapshot of QUERY_STREAM field by field (R44, R64, R83, R92, R130, R165, R172). -/

namespace Sys2Proof.Machine

-- Elaborated in parallel, the proofs of this part wait for one another on threads that pass the check's memory limit.
set_option Elab.async false

open Sys2Proof Host

/-! ### The parts of the snapshot -/

/-- Byte 6 as a number: five flags, and the condition and the GAP flag of the head of an IN stream. -/
def Stream.flagNumber (place : Option Nat) (st : Stream) : Nat :=
  flags [st.profileChecked, st.bad.isSome, st.held.isSome, place.isSome, st.headFinished] +
    32 * st.headCondition + 128 * st.headGap.toNat

/-- Bytes 0 to 17: the state, the parameters, the counts and the watch. -/
def Stream.frontBytes (place : Option Nat) (st : Stream) : List Byte :=
  [BitVec.ofNat 8 st.state.code, BitVec.ofNat 8 ((st.cause.map HaltCause.code).getD 0),
    BitVec.ofNat 8 (st.dir.code + 4 * st.cls.code),
    BitVec.ofNat 8 (st.buffers.length + 8 * st.perCycle + 32 * st.bound.val)] ++
  le 2 st.maxLen ++ [BitVec.ofNat 8 (st.flagNumber place), BitVec.ofNat 8 (place.getD 0)] ++
  le 2 st.wholeStore ++ le 2 st.openPacket ++
  [BitVec.ofNat 8 (st.sends.length + st.receives.length),
    BitVec.ofNat 8 (st.ring.fetches.length + 16 * st.ring.returned.length),
    BitVec.ofNat 8 (st.readsInFlight + st.writes.length), st.watchByte] ++
  le 2 ((st.watch.map Watch.threshold).getD 0)

/-- Bytes 36 to 43: the work ring. -/
def Stream.ringBytes (st : Stream) : List Byte :=
  le 2 st.ring.size ++ le 2 st.ring.posted ++ le 2 st.ring.taken ++ le 2 st.ring.fetchPos

section

variable {b : Body} {i : StreamId} {st : Stream}

theorem Body.streamSnapshot_eq (opened : b.stream i = some st) : b.streamSnapshot i =
    st.frontBytes (b.waitingPlace i st) ++ (st.headBytes ++ (st.ringBytes ++ (st.sequenceBytes ++
      ([b.noticeByte i] ++ fit 16 (st.buffers.flatMap Buffer.queryBytes))))) := by
  rw [Body.streamSnapshot]
  simp only [opened, Stream.ringBytes, ← List.append_assoc]
  rfl

theorem Stream.frontBytes_length (place : Option Nat) (st : Stream) : (st.frontBytes place).length = 18 := by
  simp [Stream.frontBytes]

theorem Stream.ringBytes_length (st : Stream) : st.ringBytes.length = 8 := by simp [Stream.ringBytes]

theorem Body.streamSnapshot_front (opened : b.stream i = some st) {k n : Nat} (inside : k + n ≤ 18) :
    ((b.streamSnapshot i).drop k).take n = ((st.frontBytes (b.waitingPlace i st)).drop k).take n := by
  rw [Body.streamSnapshot_eq opened]
  exact field_within (by rwa [Stream.frontBytes_length])

theorem Body.streamSnapshot_head (opened : b.stream i = some st) {k n : Nat} (inside : k + n ≤ 18) :
    ((b.streamSnapshot i).drop (18 + k)).take n = (st.headBytes.drop k).take n := by
  rw [Body.streamSnapshot_eq opened, field_beyond (st.frontBytes_length _)]
  exact field_within (by rwa [Stream.headBytes_length])

theorem Body.streamSnapshot_ring (opened : b.stream i = some st) :
    ((b.streamSnapshot i).drop 36).take 8 = st.ringBytes := by
  rw [Body.streamSnapshot_eq opened, field_beyond (st.frontBytes_length _) 18, field_beyond st.headBytes_length 0,
    field_first st.ringBytes_length]

/-- A field behind the work ring. -/
theorem Body.streamSnapshot_behind (opened : b.stream i = some st) (k n : Nat) :
    ((b.streamSnapshot i).drop (44 + k)).take n =
      ((st.sequenceBytes ++ ([b.noticeByte i] ++ fit 16 (st.buffers.flatMap Buffer.queryBytes))).drop k).take n := by
  rw [Body.streamSnapshot_eq opened, show 44 + k = 18 + (18 + (8 + k)) by omega,
    field_beyond (st.frontBytes_length _), field_beyond st.headBytes_length, field_beyond st.ringBytes_length]

theorem Body.streamSnapshot_sequence (opened : b.stream i = some st) {k n : Nat} (inside : k + n ≤ 3) :
    ((b.streamSnapshot i).drop (44 + k)).take n = (st.sequenceBytes.drop k).take n := by
  rw [Body.streamSnapshot_behind opened]
  exact field_within (by rwa [Stream.sequenceBytes_length])

theorem Body.streamSnapshot_notice (opened : b.stream i = some st) :
    (b.streamSnapshot i).getD 47 0 = b.noticeByte i := by
  refine byte_of_field ?_
  rw [Body.streamSnapshot_behind opened 3 1, field_beyond st.sequenceBytes_length 0]
  exact field_first rfl

/-! ### The flag bytes -/

theorem Stream.headCondition_le (st : Stream) : st.headCondition ≤ 2 := by
  unfold Stream.headCondition
  repeat' split
  all_goals decide

theorem Stream.flagNumber_parts (place : Option Nat) (st : Stream) : ∃ low < 32,
    st.flagNumber place = low + 32 * st.headCondition + 128 * st.headGap.toNat := ⟨_, flags_lt _, rfl⟩

/-- The flags of byte 6. -/
theorem Stream.flagByte_bit (place : Option Nat) (st : Stream) {k : Nat} (inside : k < 5) :
    (BitVec.ofNat 8 (st.flagNumber place)).getLsbD k =
      [st.profileChecked, st.bad.isSome, st.held.isSome, place.isSome, st.headFinished][k] := by
  have above : st.flagNumber place =
      flags [st.profileChecked, st.bad.isSome, st.held.isSome, place.isSome, st.headFinished] +
        2 ^ [st.profileChecked, st.bad.isSome, st.held.isSome, place.isSome, st.headFinished].length *
          (st.headCondition + 4 * st.headGap.toNat) := by
    simp only [Stream.flagNumber, List.length_cons, List.length_nil]
    omega
  rw [above, getLsbD_flags (by simpa using inside) (by simp)]

theorem Stream.flagByte_toNat (place : Option Nat) (st : Stream) :
    (BitVec.ofNat 8 (st.flagNumber place)).toNat / 32 = st.headCondition + 4 * st.headGap.toNat := by
  obtain ⟨low, small, parts⟩ := st.flagNumber_parts place
  have condition := st.headCondition_le
  have gap := st.headGap.toNat_lt
  rw [BitVec.toNat_ofNat, parts]
  omega

/-- The GAP flag is the highest bit of byte 6. -/
theorem Stream.flagByte_gap (place : Option Nat) (st : Stream) :
    (BitVec.ofNat 8 (st.flagNumber place)).getLsbD 7 = st.headGap := by
  obtain ⟨low, small, parts⟩ := st.flagNumber_parts place
  have condition := st.headCondition_le
  rw [BitVec.getLsbD_ofNat, Nat.testBit_eq_decide_div_mod_eq, parts]
  cases st.headGap
  · simp only [Bool.toNat_false, Nat.reduceLT, decide_true, Bool.true_and, decide_eq_false_iff_not]
    omega
  · simp only [Bool.toNat_true, Nat.reduceLT, decide_true, Bool.true_and, decide_eq_true_eq]
    omega

/-- Byte 15, the watch. -/
theorem Stream.watchByte_bits {w : Watch} (watching : st.watch = some w) : st.watchByte.toNat < 16 ∧
    st.watchByte.getLsbD 0 = true ∧ (st.watchByte.getLsbD 1 = true ↔ w.dir = .atOrBelow) ∧
    (st.watchByte.getLsbD 2 = true ↔ w.measure = .openPacket) ∧ st.watchByte.getLsbD 3 = w.condition := by
  have byte : st.watchByte =
      BitVec.ofNat 8 (flags [true, w.dir == .atOrBelow, w.measure == .openPacket, w.condition] + 2 ^ 4 * 0) := by
    simp only [Stream.watchByte, watching]
    rfl
  have bit : ∀ {k : Nat} (inside : k < 4), st.watchByte.getLsbD k =
      [true, w.dir == .atOrBelow, w.measure == .openPacket, w.condition][k] := fun inside => by
    rw [byte]
    exact getLsbD_flags inside (by simp) 0
  have small : flags [true, w.dir == .atOrBelow, w.measure == .openPacket, w.condition] < 16 := flags_lt _
  refine ⟨?_, bit (k := 0) (by decide), ?_, ?_, bit (k := 3) (by decide)⟩
  · rw [byte, BitVec.toNat_ofNat]
    omega
  · rw [bit (k := 1) (by decide)]
    exact beq_iff_eq (a := w.dir)
  · rw [bit (k := 2) (by decide)]
    exact beq_iff_eq (a := w.measure)

/-! ### The buffers -/

/-- One buffer in four bytes: its state code with its mark, gap mark and sequence bit, its counter and its count. -/
def shownBuffer (state : Nat) (mark gap bit : Bool) (counter : Byte) (count : Nat) : List Byte :=
  [BitVec.ofNat 8 (state + (if mark then 8 else 0) + (if gap then 16 else 0) + (if bit then 32 else 0)), counter] ++
    le 2 count

theorem Buffer.queryBytes_eq (x : Buffer) :
    x.queryBytes = shownBuffer x.stateCode x.mark x.gapMark x.sequenceBit x.counter x.count := by
  have flagged : x.stateCode + flags [false, false, false, x.mark, x.gapMark, x.sequenceBit] =
      x.stateCode + (if x.mark then 8 else 0) + (if x.gapMark then 16 else 0) + (if x.sequenceBit then 32 else 0) := by
    cases x.mark <;> cases x.gapMark <;> cases x.sequenceBit <;> rfl
  rw [Buffer.queryBytes, flagged]
  rfl

theorem Buffer.queryBytes_length (x : Buffer) : x.queryBytes.length = 4 := by simp [Buffer.queryBytes]

theorem Body.streamSnapshot_buffer (opened : b.stream i = some st) (few : st.buffers.length ≤ 4) {k : Nat}
    (inside : k < 4) : ((b.streamSnapshot i).drop (48 + 4 * k)).take 4 = ((st.buffers[k]?).map Buffer.queryBytes).getD (le 4 0) := by
  have width : (st.buffers.flatMap Buffer.queryBytes).length = 4 * st.buffers.length := by
    simp [List.length_flatMap, Buffer.queryBytes_length, Nat.mul_comm]
  rw [show 48 + 4 * k = 44 + (3 + (1 + 4 * k)) by omega, Body.streamSnapshot_behind opened,
    field_beyond st.sequenceBytes_length, field_beyond (a := [b.noticeByte i]) (n := 1) rfl, fit,
    List.take_of_length_le (i := 16) (by omega)]
  by_cases there : k < st.buffers.length
  · rw [field_of_items Buffer.queryBytes_length _ _ k there, List.getElem?_eq_getElem there]
    rfl
  · rw [List.getElem?_eq_none (by omega), show 4 * k = 4 * st.buffers.length + (4 * k - 4 * st.buffers.length) by omega,
      field_beyond width, width, List.drop_replicate, List.take_replicate, le_zero]
    congr 1
    omega

/-! ### The sequence state -/

theorem AnswerCondition.code_lt (a : AnswerCondition) : a.code < 16 := by cases a <;> decide

theorem Stream.answerCode_lt (st : Stream) : st.answerCode < 16 := by
  unfold Stream.answerCode
  split
  · split
    · exact AnswerCondition.code_lt _
    · decide
  · decide

/-- Byte 44 of a best-effort OUT stream. -/
theorem Stream.sequenceByte_bits (next flight : Bool) (st : Stream) :
    let byte := BitVec.ofNat 8 (flags [next, flight] + 16 * st.answerCode)
    byte.getLsbD 0 = next ∧ byte.getLsbD 1 = flight ∧ byte.toNat / 4 % 4 = 0 ∧ byte.toNat / 16 = st.answerCode := by
  have answer := st.answerCode_lt
  have low : flags [next, flight] < 4 := flags_lt _
  have above : flags [next, flight] + 16 * st.answerCode = flags [next, flight] + 2 ^ 2 * (4 * st.answerCode) := by
    omega
  refine ⟨?_, ?_, ?_, ?_⟩
  · rw [above]
    exact getLsbD_flags (bits := [next, flight]) (k := 0) (by simp) (by simp) _
  · rw [above]
    exact getLsbD_flags (bits := [next, flight]) (k := 1) (by simp) (by simp) _
  · rw [BitVec.toNat_ofNat]
    omega
  · rw [BitVec.toNat_ofNat]
    omega

/-! ### The fields -/

/-- Byte 47 is the notice that is queued for the stream. -/
theorem Body.noticeByte_eq (i : StreamId) (b : Body) : b.noticeByte i =
    BitVec.ofNat 8 (match b.lt.notices.find? fun n => n.stream == i with
      | some n => (if n.closed then 2 else 1) + 16 * n.sends
      | none => 0) := by
  unfold Body.noticeByte
  cases b.lt.notices.find? fun n => n.stream == i with
  | none => rfl
  | some n => cases closed : n.closed <;> simp [noticeCode, closed]

theorem Body.streamSnapshot_closed (closed : b.stream i = none) :
    b.streamSnapshot i = List.replicate 47 0 ++ [b.noticeByte i] ++ List.replicate 16 0 := by
  rw [Body.streamSnapshot, closed, ← le_zero, ← le_zero]

theorem Body.streamSnapshot_byte (opened : b.stream i = some st) {k : Nat} {x : Byte} (inside : k + 1 ≤ 18)
    (byte : ((st.frontBytes (b.waitingPlace i st)).drop k).take 1 = [x]) : (b.streamSnapshot i).getD k 0 = x :=
  byte_of_field ((Body.streamSnapshot_front opened inside).trans byte)

theorem Body.streamSnapshot_flags (opened : b.stream i = some st) :
    (b.streamSnapshot i).getD 6 0 = BitVec.ofNat 8 (st.flagNumber (b.waitingPlace i st)) :=
  Body.streamSnapshot_byte opened (by decide) rfl

theorem Body.streamSnapshot_watch (opened : b.stream i = some st) : (b.streamSnapshot i).getD 15 0 = st.watchByte :=
  Body.streamSnapshot_byte opened (by decide) rfl

theorem Body.streamSnapshot_sequenceByte (opened : b.stream i = some st) {x : Byte}
    (byte : st.sequenceBytes.take 1 = [x]) : (b.streamSnapshot i).getD 44 0 = x :=
  byte_of_field ((Body.streamSnapshot_sequence opened (k := 0) (by decide)).trans byte)

theorem Stream.headCondition_cons {e : ReceiveEntry} {es : List ReceiveEntry} (head : st.receives = e :: es) :
    st.headCondition = if e.issued < e.capacity ∧ e.markIssued = false then 0
      else if e.written = e.issued ∧ (e.markIssued = true → e.markDelivered = true) then 2 else 1 := by
  have open_iff : e.isOpen = true ↔ e.issued < e.capacity ∧ e.markIssued = false := by simp [ReceiveEntry.isOpen]
  simp only [Stream.headCondition, head, ← open_iff]
  by_cases is_open : e.isOpen = true
  · simp [is_open]
  · have done_iff : e.isDone = true ↔ e.written = e.issued ∧ (e.markIssued = true → e.markDelivered = true) := by
      cases mark : e.markIssued <;> simp [ReceiveEntry.isDone, is_open, mark]
    simp only [if_neg is_open, done_iff]

end

end Sys2Proof.Machine
end

section
/-! SUPPORT. Both snapshots, row by row (R172, R173; 11.4). -/

namespace Sys2Proof.Machine

-- Elaborated in parallel, the proofs of this part wait for one another on threads that pass the check's memory limit.
set_option Elab.async false

open Sys2Proof Host

section

variable {st : Stream}

/-! ### The head of an OUT stream and of an IN stream -/

theorem Stream.headFinished_cons {e : SendEntry} {es : List SendEntry} (outbound : st.dir = .outbound)
    (head : st.sends = e :: es) : st.headFinished = e.finished := by
  simp [Stream.headFinished, outbound, head]

theorem Stream.headFinished_nil (none : st.sends = []) : st.headFinished = false := by
  cases dir : st.dir <;> simp [Stream.headFinished, dir, none]

theorem Stream.headFinished_inbound (inbound : st.dir = .inbound) : st.headFinished = false := by
  simp [Stream.headFinished, inbound]

theorem Stream.headBytes_sends {e : SendEntry} {es : List SendEntry} (outbound : st.dir = .outbound)
    (head : st.sends = e :: es) : st.headBytes =
      le 2 e.position ++ le 4 e.length ++ le 4 e.requested ++ le 4 e.read ++ le 4 e.confirmed := by
  simp only [Stream.headBytes, outbound, head]

theorem Stream.headBytes_no_sends (outbound : st.dir = .outbound) (none : st.sends = []) : st.headBytes = le 18 0 := by
  simp only [Stream.headBytes, outbound, none]

theorem Stream.headBytes_receives {e : ReceiveEntry} {es : List ReceiveEntry} (inbound : st.dir = .inbound)
    (head : st.receives = e :: es) : st.headBytes =
      (le 2 e.position ++ le 4 e.capacity ++ le 4 e.issued ++ le 4 e.written) ++ le 4 st.drainingWritten := by
  simp only [Stream.headBytes, inbound, head]

theorem Stream.headBytes_no_receives (inbound : st.dir = .inbound) (none : st.receives = []) :
    st.headBytes = le 14 0 ++ le 4 st.drainingWritten := by
  simp only [Stream.headBytes, inbound, none]

/-- Bytes 32 to 35 of an IN stream. -/
theorem Stream.headBytes_draining (inbound : st.dir = .inbound) :
    (st.headBytes.drop 14).take 4 = le 4 st.drainingWritten := by
  cases head : st.receives with
  | nil => rw [Stream.headBytes_no_receives inbound head]; rfl
  | cons e es => rw [Stream.headBytes_receives inbound head]; rfl

theorem Stream.drainingWritten_none (none : st.drainingIndex = none) : st.drainingWritten = 0 := by
  rw [Stream.drainingWritten, none]

theorem Stream.headCondition_nil (none : st.receives = []) : st.headCondition = 0 ∧ st.headGap = false := by
  simp [Stream.headCondition, Stream.headGap, none]

/-! ### The answer condition -/

theorem Stream.answerCode_none (none : st.sentIndex = none) : st.answerCode = 0 := by
  rw [Stream.answerCode, none]

theorem Stream.answerCode_some {k : Nat} {data : List Byte} {mark bit : Bool} {answer : AnswerCondition}
    (sent : st.sentIndex = some k) (packet : st.buffer k = .sent data mark bit answer) :
    st.answerCode = answer.code := by
  simp only [Stream.answerCode, sent, packet]

/-! ### Groups of rows -/

variable {b : Body} {i : StreamId}

theorem Body.streamSnapshot_flag (opened : b.stream i = some st) {k : Nat} (inside : k < 5) :
    ((b.streamSnapshot i).getD 6 0).getLsbD k =
      [st.profileChecked, st.bad.isSome, st.held.isSome, (b.waitingPlace i st).isSome, st.headFinished][k] := by
  rw [Body.streamSnapshot_flags opened, Stream.flagByte_bit _ _ inside]

theorem Body.streamSnapshot_high (opened : b.stream i = some st) :
    ((b.streamSnapshot i).getD 6 0).toNat / 32 = st.headCondition + 4 * st.headGap.toNat := by
  rw [Body.streamSnapshot_flags opened, Stream.flagByte_toNat]

theorem Body.streamSnapshot_heads (opened : b.stream i = some st) {n : Nat} (inside : n ≤ 18) :
    ((b.streamSnapshot i).drop 18).take n = st.headBytes.take n :=
  Body.streamSnapshot_head opened (k := 0) (by omega)

theorem Body.streamSnapshot_watching (opened : b.stream i = some st) {w : Watch} (watching : st.watch = some w) :
    ((b.streamSnapshot i).getD 15 0).toNat < 16 ∧ ((b.streamSnapshot i).getD 15 0).getLsbD 0 = true ∧
      (((b.streamSnapshot i).getD 15 0).getLsbD 1 = true ↔ w.dir = .atOrBelow) ∧
      (((b.streamSnapshot i).getD 15 0).getLsbD 2 = true ↔ w.measure = .openPacket) ∧
      ((b.streamSnapshot i).getD 15 0).getLsbD 3 = w.condition ∧
      ((b.streamSnapshot i).drop 16).take 2 = le 2 w.threshold := by
  obtain ⟨small, on, direction, measure, condition⟩ := Stream.watchByte_bits watching
  rw [Body.streamSnapshot_watch opened, Body.streamSnapshot_front opened (by decide),
    show w.threshold = (st.watch.map Watch.threshold).getD 0 by rw [watching]; rfl]
  exact ⟨small, on, direction, measure, condition, rfl⟩

/-- With no watch bytes 15 to 17 are zero (R92). -/
theorem Body.streamSnapshot_unwatched (opened : b.stream i = some st) (none : st.watch = none) :
    ((b.streamSnapshot i).drop 15).take 3 = [0, 0, 0] := by
  rw [Body.streamSnapshot_front opened (by decide)]
  simp [Stream.frontBytes, Stream.watchByte, none, le]

/-- The rows of the head of an OUT stream (R64). -/
theorem Body.streamSnapshot_outbound (opened : b.stream i = some st) (outbound : st.dir = .outbound) :
    (∀ e es, st.sends = e :: es →
      (((b.streamSnapshot i).getD 6 0).getLsbD 4 = true ↔
        e.confirmed = e.length ∧ (e.eom = true → e.markConfirmed = true)) ∧
      ((b.streamSnapshot i).drop 18).take 18 =
        le 2 e.position ++ le 4 e.length ++ le 4 e.requested ++ le 4 e.read ++ le 4 e.confirmed) ∧
    (st.sends = [] → ((b.streamSnapshot i).getD 6 0).getLsbD 4 = false ∧
      ((b.streamSnapshot i).drop 18).take 18 = le 18 0) ∧
    (st.receives = [] → ((b.streamSnapshot i).getD 6 0).toNat / 32 = 0) := by
  have finished : ((b.streamSnapshot i).getD 6 0).getLsbD 4 = st.headFinished :=
    Body.streamSnapshot_flag opened (k := 4) (by decide)
  refine ⟨fun e es head => ⟨?_, ?_⟩, fun none => ⟨?_, ?_⟩, fun none => ?_⟩
  · rw [finished, Stream.headFinished_cons outbound head, SendEntry.finished_iff]
  · rw [Body.streamSnapshot_heads opened le_rfl, Stream.headBytes_sends outbound head]
    rfl
  · rw [finished, Stream.headFinished_nil none]
  · rw [Body.streamSnapshot_heads opened le_rfl, Stream.headBytes_no_sends outbound none]
    rfl
  · obtain ⟨condition, gap⟩ := Stream.headCondition_nil none
    rw [Body.streamSnapshot_high opened, condition, gap]
    rfl

/-- The rows of the head of an IN stream (R83). -/
theorem Body.streamSnapshot_inbound (opened : b.stream i = some st) (inbound : st.dir = .inbound) :
    ((b.streamSnapshot i).getD 6 0).getLsbD 4 = false ∧
    (∀ e es, st.receives = e :: es →
      ((b.streamSnapshot i).getD 6 0).toNat / 32 % 4 = (if e.issued < e.capacity ∧ e.markIssued = false then 0
        else if e.written = e.issued ∧ (e.markIssued = true → e.markDelivered = true) then 2 else 1) ∧
      ((b.streamSnapshot i).getD 6 0).getLsbD 7 = e.gap ∧
      ((b.streamSnapshot i).drop 18).take 14 =
        le 2 e.position ++ le 4 e.capacity ++ le 4 e.issued ++ le 4 e.written) ∧
    (st.receives = [] → ((b.streamSnapshot i).getD 6 0).toNat / 32 = 0 ∧
      ((b.streamSnapshot i).drop 18).take 14 = le 14 0) ∧
    ((b.streamSnapshot i).drop 32).take 4 = le 4 st.drainingWritten := by
  have finished : ((b.streamSnapshot i).getD 6 0).getLsbD 4 = st.headFinished :=
    Body.streamSnapshot_flag opened (k := 4) (by decide)
  refine ⟨finished.trans (Stream.headFinished_inbound inbound), fun e es head => ⟨?_, ?_, ?_⟩, fun none => ⟨?_, ?_⟩,
    ?_⟩
  · have small := st.headCondition_le
    rw [← Stream.headCondition_cons head, Body.streamSnapshot_high opened]
    omega
  · rw [Body.streamSnapshot_flags opened, Stream.flagByte_gap, Stream.headGap, head]
  · rw [Body.streamSnapshot_heads opened (by decide), Stream.headBytes_receives inbound head]
    rfl
  · obtain ⟨condition, gap⟩ := Stream.headCondition_nil none
    rw [Body.streamSnapshot_high opened, condition, gap]
    rfl
  · rw [Body.streamSnapshot_heads opened (by decide), Stream.headBytes_no_receives inbound none]
    rfl
  · rw [Body.streamSnapshot_head opened (k := 14) (by decide), Stream.headBytes_draining inbound]

/-- Bytes 44 to 46 of a best-effort OUT stream (R130). -/
theorem Body.streamSnapshot_bestEffortOut {next flight : Bool} {count : Nat} (opened : b.stream i = some st)
    (seq : st.seq = .bestEffortOut next flight count) :
    ((b.streamSnapshot i).getD 44 0).getLsbD 0 = next ∧ ((b.streamSnapshot i).getD 44 0).getLsbD 1 = flight ∧
      ((b.streamSnapshot i).getD 44 0).toNat / 4 % 4 = 0 ∧
      ((b.streamSnapshot i).drop 45).take 2 = [0, BitVec.ofNat 8 count] ∧
      ((b.streamSnapshot i).getD 44 0).toNat / 16 = st.answerCode := by
  have bytes : st.sequenceBytes =
      [BitVec.ofNat 8 (flags [next, flight] + 16 * st.answerCode), 0, BitVec.ofNat 8 count] := by
    rw [Stream.sequenceBytes, seq]
  obtain ⟨bit, sent, clear, answer⟩ := Stream.sequenceByte_bits next flight st
  rw [Body.streamSnapshot_sequenceByte opened (by rw [bytes]; rfl),
    Body.streamSnapshot_sequence opened (k := 1) (by decide), bytes]
  exact ⟨bit, sent, clear, rfl, answer⟩

/-- Bytes 44 to 46 of the other streams (R130). -/
theorem Body.streamSnapshot_sequences (opened : b.stream i = some st) :
    ((b.streamSnapshot i).drop 44).take 3 = st.sequenceBytes := by
  rw [Body.streamSnapshot_sequence opened (k := 0) (by decide)]
  exact List.take_of_length_le st.sequenceBytes_length.le

end

section

/-! ### The rows of QUERY_LINK before the rings -/

variable (s : State)

theorem State.linkSnapshot_signal : (s.linkSnapshot.drop 2).take 1 =
    [BitVec.ofNat 8 ((if s.bp.signal then 1 else 0) + 2 * (s.ce.role.map Role.code).getD 0)] := by
  rw [State.linkSnapshot_front (by decide)]
  cases signal : s.bp.signal <;> simp [State.linkBytes, signal]

theorem State.linkSnapshot_periods : (s.linkSnapshot.drop 6).take 4 =
    le 2 ((s.ce.period.map Period.us).getD 0) ++ le 2 s.ce.inForce.us := State.linkSnapshot_front (by decide)

theorem State.linkSnapshot_cycle : (s.linkSnapshot.drop 10).take 6 =
    le 2 s.ce.cycle.toNat ++ le 2 s.body.reservedSum ++ le 2 s.body.lt.budget := State.linkSnapshot_front (by decide)

theorem State.linkSnapshot_counts : (s.linkSnapshot.drop 16).take 4 =
    [BitVec.ofNat 8 s.body.lt.notices.length, BitVec.ofNat 8 (freeCount s.body.blocks),
      BitVec.ofNat 8 s.body.table.length, BitVec.ofNat 8 s.body.events.length] := State.linkSnapshot_front (by decide)

theorem State.linkSnapshot_profiles : (s.linkSnapshot.drop 20).take 4 =
    le 2 s.bp.localProfile.length ++ le 2 ((s.bp.peerProfile.map List.length).getD 0) :=
  State.linkSnapshot_front (by decide)

theorem State.linkSnapshot_check : (s.linkSnapshot.drop 24).take 4 = le 4 (checkValue s.bp.localProfile).toNat :=
  State.linkSnapshot_front (by decide)

theorem State.linkSnapshot_left : (s.linkSnapshot.drop 28).take 4 = le 4 s.bringUpLeft :=
  State.linkSnapshot_front (by decide)

theorem State.linkSnapshot_outgoing : (s.linkSnapshot.drop 32).take 1 = [s.bp.outgoingByte] :=
  State.linkSnapshot_front (by decide)

theorem State.linkSnapshot_incoming : (s.linkSnapshot.drop 33).take 1 = [s.bp.incomingByte] :=
  State.linkSnapshot_front (by decide)

end

/-- Settles O21: the rows of each snapshot in the order of 11.4. -/
theorem snapshotsLayOutTheFields : Obligations.SnapshotsLayOutTheFields := by
  refine ⟨fun b i => ⟨fun closed => ?_, fun st opened => ?_⟩, fun s => ?_⟩
  · refine (Body.streamSnapshot_closed closed).trans ?_
    exact congrArg (fun x => List.replicate 47 0 ++ [x] ++ List.replicate 16 0) (Body.noticeByte_eq i b)
  · have front : ∀ {k n : Nat}, k + n ≤ 18 → _ := fun inside => Body.streamSnapshot_front opened inside
    have flag : ∀ {k : Nat} (inside : k < 5), ((b.streamSnapshot i).getD 6 0).getLsbD k = _ := fun inside =>
      Body.streamSnapshot_flag opened inside
    refine ⟨front (k := 0) (by decide), front (k := 4) (by decide), flag (k := 0) (by decide),
      flag (k := 1) (by decide), flag (k := 2) (by decide), flag (k := 3) (by decide), Body.streamSnapshot_byte opened (by decide) rfl,
      front (k := 8) (by decide), Body.streamSnapshot_unwatched opened, fun w => Body.streamSnapshot_watching opened,
      Body.streamSnapshot_outbound opened, fun inbound => ?_, Body.streamSnapshot_ring opened, ?_,
      (Body.streamSnapshot_notice opened).trans (Body.noticeByte_eq i b),
      fun few k inside => (Body.streamSnapshot_buffer opened few inside).trans ?_⟩
    · obtain ⟨finished, head, none, draining⟩ := Body.streamSnapshot_inbound opened inbound
      refine ⟨finished, head, none, fun nowhere => ?_,
        fun k data mark value cycle gap written issued index packet => ?_⟩
      · exact draining.trans (by rw [Stream.drainingWritten_none nowhere])
      · exact draining.trans (by simp only [Stream.drainingWritten, index, packet])
    · have bytes := Body.streamSnapshot_sequences opened
      rw [Stream.sequenceBytes] at bytes
      cases seq : st.seq with
      | bestEffortOut next flight count =>
        obtain ⟨bit, sent, clear, rest, answer⟩ := Body.streamSnapshot_bestEffortOut opened seq
        refine ⟨bit, sent, clear, rest, fun none => ?_, fun k data mark bit condition index packet => ?_⟩
        · exact answer.trans (Stream.answerCode_none none)
        · refine answer.trans ((Stream.answerCode_some index packet).trans ?_)
          cases condition <;> rfl
      | bestEffortIn expected =>
        rw [seq] at bytes
        exact bytes.trans (by cases expected <;> rfl)
      | scheduledOut counter =>
        rw [seq] at bytes
        exact bytes
      | scheduledIn expected gap first =>
        rw [seq] at bytes
        exact bytes.trans (by cases gap <;> cases first <;> rfl)
    · cases slot : st.buffers[k]? with
      | none => rfl
      | some x =>
        refine (Buffer.queryBytes_eq x).trans ?_
        cases x with
        | held data mark value cycle gap => cases value <;> rfl
        | draining data mark value cycle gap written issued => cases value <;> rfl
        | _ => rfl
  · refine ⟨State.linkSnapshot_front (k := 0) (by decide), s.linkSnapshot_signal,
      State.linkSnapshot_front (k := 3) (by decide), s.linkSnapshot_periods, s.linkSnapshot_cycle,
      s.linkSnapshot_counts, s.linkSnapshot_profiles, s.linkSnapshot_check, fun none => ?_,
      fun t runs => ⟨toMs (t - s.now), ?_, toMs_near _⟩, fun none => ?_, fun o exchange => ?_, fun none => ?_,
      fun x exchange => ?_, fun none => ?_, fun r held => ?_, s.linkSnapshot_behind 0 8, fun c none => ?_,
      fun c cr held => ?_, fun none => ?_, fun r held => ?_, s.linkSnapshot_rest⟩
    · exact s.linkSnapshot_left.trans (by rw [State.bringUpLeft, none])
    · exact s.linkSnapshot_left.trans (by rw [State.bringUpLeft, runs])
    · exact s.linkSnapshot_outgoing.trans (by rw [BringUp.outgoingByte, none])
    · exact s.linkSnapshot_outgoing.trans (by rw [BringUp.outgoingByte, exchange])
    · exact s.linkSnapshot_incoming.trans (by rw [BringUp.incomingByte, none])
    · exact s.linkSnapshot_incoming.trans (by rw [BringUp.incomingByte, exchange])
    · exact s.linkSnapshot_admin.trans (by rw [none]; rfl)
    · exact s.linkSnapshot_admin.trans (by rw [held]; rfl)
    · exact (s.linkSnapshot_completion c).trans (by rw [none]; rfl)
    · exact (s.linkSnapshot_completion c).trans (by rw [held]; exact PartRing.queryBytes_eq _ _)
    · exact s.linkSnapshot_event.trans (by rw [none]; rfl)
    · exact s.linkSnapshot_event.trans (by rw [held]; exact PartRing.queryBytes_eq _ _)

end Sys2Proof.Machine
end

section
/-! SUPPORT. The bytes of a frame and the commands read from them (R110, R184, R185). -/

namespace Sys2Proof.Machine

-- Elaborated in parallel, the proofs of this part wait for one another on threads that pass the check's memory limit.
set_option Elab.async false

open Sys2Proof Host

/-! ### Numbers and bytes -/

theorem leVal_lt (bs : List Byte) : leVal bs < 256 ^ bs.length := by
  induction bs with
  | nil => exact Nat.one_pos
  | cons b bs ih =>
    have byte := b.isLt
    rw [leVal, List.length_cons, Nat.pow_succ]
    omega

/-- A number is read back from its bytes. -/
theorem leVal_le {n v : Nat} (small : v < 256 ^ n) : leVal (le n v) = v := by
  induction n generalizing v with
  | zero => exact (Nat.lt_one_iff.mp small).symm
  | succ n ih =>
    have rest : v / 256 < 256 ^ n := Nat.div_lt_of_lt_mul (by rwa [pow_succ'] at small)
    rw [le, leVal, ih rest, BitVec.toNat_ofNat]
    exact Nat.mod_add_div v 256

/-- Bytes are written back from their number. -/
theorem le_leVal (bs : List Byte) : le bs.length (leVal bs) = bs := by
  induction bs with
  | nil => rfl
  | cons b bs ih =>
    have byte := b.isLt
    have low : BitVec.ofNat 8 (b.toNat + 256 * leVal bs) = b := by
      apply BitVec.eq_of_toNat_eq
      rw [BitVec.toNat_ofNat]
      omega
    have high : (b.toNat + 256 * leVal bs) / 256 = leVal bs := by omega
    rw [List.length_cons, leVal, le, low, high, ih]

theorem leVal_bytesOf {w n : Nat} (wide : 2 ^ w ≤ 256 ^ n) (v : BitVec w) : leVal (bytesOf n v) = v.toNat :=
  leVal_le (v.isLt.trans_le wide)

/-! ### The check value -/

section

variable {bs : List Byte}

theorem sealFrame_length (bs : List Byte) : (sealFrame bs).length = bs.length + 4 := by
  simp [sealFrame, bytesOf]

/-- The bytes before the check value. -/
theorem sealFrame_take (bs : List Byte) : (sealFrame bs).take ((sealFrame bs).length - 4) = bs := by
  rw [sealFrame_length, Nat.add_sub_cancel, sealFrame, List.take_left]

/-- A frame that carries its own check value passes (R110, R185). -/
theorem checkPasses_sealFrame (bs : List Byte) : checkPasses (sealFrame bs) = true := by
  have check : (sealFrame bs).drop ((sealFrame bs).length - 4) = bytesOf 4 (checkValue bs) := by
    rw [sealFrame_length, Nat.add_sub_cancel, sealFrame, List.drop_left]
  rw [checkPasses, sealFrame_take, check, sealFrame_length]
  simp

/-- A byte of a frame that lies before its last four. -/
theorem getD_take {frame : List Byte} {k n : Nat} (inside : k < n) : (frame.take n).getD k 0 = frame.getD k 0 := by
  rw [List.getD_eq_getElem?_getD, List.getD_eq_getElem?_getD, List.getElem?_take_of_lt inside]

theorem getD_sealFrame {k : Nat} (inside : k < bs.length) : (sealFrame bs).getD k 0 = bs.getD k 0 := by
  rw [sealFrame, List.getD_append _ _ _ _ inside]

/-! ### Control frames -/

/-- A control frame that passes its check is read as its command (R185). -/
theorem commandsOfFrame_control {c : Instr} (filled : 0 < bs.length) (control : bs.getD 0 0 ≠ 1)
    (command : commandOfControl bs = some c) : commandsOfFrame (sealFrame bs) = [c] := by
  have kind : ¬((sealFrame bs).getD 0 0 = 1 ∧ 8 ≤ (sealFrame bs).length) := fun data =>
    control ((getD_sealFrame filled).symm.trans data.1)
  unfold commandsOfFrame
  simp only [if_neg kind, checkPasses_sealFrame, sealFrame_take, command, if_true]

theorem frameStream_streamByte (i : StreamId) (bit : Bool) (a : Byte) (rest : List Byte) :
    frameStream (a :: streamByte i bit :: rest) = i := by
  have small := i.isLt
  have bit_le := bit.toNat_lt
  apply Fin.ext
  simp only [frameStream, streamByte, List.getD_cons_succ, List.getD_cons_zero, BitVec.toNat_ofNat, Fin.ofNat]
  omega

theorem frameBit_streamByte (i : StreamId) (bit : Bool) (a : Byte) (rest : List Byte) :
    frameBit (a :: streamByte i bit :: rest) = bit := by
  have small := i.isLt
  simp only [frameBit, streamByte, List.getD_cons_succ, List.getD_cons_zero, BitVec.getLsbD_ofNat,
    Nat.testBit_eq_decide_div_mod_eq]
  cases bit
  · simp only [Bool.toNat_false, Nat.reduceLT, decide_true, Bool.true_and, decide_eq_false_iff_not]
    omega
  · simp only [Bool.toNat_true, Nat.reduceLT, decide_true, Bool.true_and, decide_eq_true_eq]
    omega

/-- A 16-bit field is read back from its two bytes. -/
theorem half_le {k v : Nat} (field : (bs.drop k).take 2 = le 2 v) (small : v < 2 ^ 16) :
    half bs k = BitVec.ofNat 16 v := by
  rw [half, field, leVal_le small]

theorem half_bytesOf {k : Nat} {v : BitVec 16} (field : (bs.drop k).take 2 = bytesOf 2 v) : half bs k = v := by
  rw [half, field, leVal_bytesOf (by decide), BitVec.ofNat_toNat, BitVec.setWidth_eq]

theorem word_bytesOf {v : BitVec 32} : BitVec.ofNat 32 (leVal (bytesOf 4 v)) = v := by
  rw [leVal_bytesOf (by decide), BitVec.ofNat_toNat, BitVec.setWidth_eq]

/-- Every control frame the part sends is its command (11.4, "Control frames"). -/
theorem commandOfControl_body (f : ControlFrame) (short : ∀ n bs, f = .profileChunk n bs → bs.length < 2 ^ 16) :
    commandOfControl f.body = some f.command := by
  have stream : ∀ (i : StreamId) (bit : Bool) (a x y : Byte), frameStream [a, streamByte i bit, x, y] = i :=
    fun i bit a x y => frameStream_streamByte i bit a [x, y]
  have bit : ∀ (i : StreamId) (bit : Bool) (a x y : Byte), frameBit [a, streamByte i bit, x, y] = bit :=
    fun i bit a x y => frameBit_streamByte i bit a [x, y]
  cases f with
  | accept i b =>
    have read : commandOfControl [2, streamByte i b, 0, 0] = some (.accept (frameStream _) (frameBit _)) := rfl
    exact read.trans (by rw [stream, bit]; rfl)
  | defer i b =>
    have read : commandOfControl [3, streamByte i b, 0, 0] = some (.defer (frameStream _) (frameBit _)) := rfl
    exact read.trans (by rw [stream, bit]; rfl)
  | gone i =>
    have read : commandOfControl [4, streamByte i false, 0, 0] = some (.gone (frameStream _)) := rfl
    exact read.trans (by rw [stream]; rfl)
  | notice i k =>
    have read : commandOfControl [5, streamByte i false, k, 0] = some (.notice (frameStream _) k) := rfl
    exact read.trans (by rw [stream]; rfl)
  | noticeAck i k =>
    have read : commandOfControl [6, streamByte i false, k, 0] = some (.noticeAck (frameStream _) k) := rfl
    exact read.trans (by rw [stream]; rfl)
  | cycleStart n =>
    have read : commandOfControl ([7, 0] ++ bytesOf 2 n) = some (.cycleStart (half _ 2)) := rfl
    exact read.trans (by rw [half_bytesOf rfl]; rfl)
  | cycleEcho n =>
    have read : commandOfControl ([8, 0] ++ bytesOf 2 n) = some (.cycleEcho (half _ 2)) := rfl
    exact read.trans (by rw [half_bytesOf rfl]; rfl)
  | hello role period length check =>
    have read : commandOfControl (ControlFrame.hello role period length check).body =
        some (.hello role (half _ 2) (half _ 4) (BitVec.ofNat 32 (leVal (bytesOf 4 check)))) := rfl
    exact read.trans (by rw [half_bytesOf (v := period) rfl, half_bytesOf (v := length) rfl, word_bytesOf]; rfl)
  | profileChunk n bs =>
    have small := short n bs rfl
    have width : (ControlFrame.profileChunk n bs).body.length = 8 + bs.length := by
      simp only [ControlFrame.body, List.length_append, List.length_cons, List.length_nil, le_length]
    have announced : half (ControlFrame.profileChunk n bs).body 4 = BitVec.ofNat 16 bs.length := half_le rfl small
    have kind : ((ControlFrame.profileChunk n bs).body.getD 0 0).toNat = 10 := rfl
    unfold commandOfControl
    rw [if_neg (by omega), if_neg (by omega), if_pos]
    · rfl
    · rw [announced, BitVec.toNat_ofNat]
      omega
  | profileAck n => rfl
  | farewell => rfl

theorem ControlFrame.body_kind (f : ControlFrame) : 0 < f.body.length ∧ f.body.getD 0 0 ≠ 1 := by
  cases f <;> simp [ControlFrame.body]

end

end Sys2Proof.Machine
end

section
/-! SUPPORT. DATA frames, and frames that are damaged, as the commands read from them (R110, R184, R185). -/

namespace Sys2Proof.Machine

-- Elaborated in parallel, the proofs of this part wait for one another on threads that pass the check's memory limit.
set_option Elab.async false

open Sys2Proof Host

/-! ### The header -/

theorem DataHeader.bytes_length (h : DataHeader) : h.bytes.length = 8 := by simp [DataHeader.bytes]

/-- Byte 1 of a header as a number. -/
theorem headerByte_toNat (i : StreamId) (best mark bit : Bool) :
    (BitVec.ofNat 8 (i.val + 16 * best.toNat + 32 * mark.toNat + 64 * bit.toNat)).toNat =
      i.val + 16 * best.toNat + 32 * mark.toNat + 64 * bit.toNat := by
  have stream := i.isLt
  have best_le := best.toNat_lt
  have mark_le := mark.toNat_lt
  have bit_le := bit.toNat_lt
  rw [BitVec.toNat_ofNat, Nat.mod_eq_of_lt]
  omega

/-- Eight bytes as one word. -/
def headerWord (bs : List Byte) : BitVec 64 := BitVec.ofNat 64 (leVal bs)

section

variable {bs : List Byte} {h : DataHeader}

/-- Part of a word as a number. -/
theorem headerWord_extract (width : bs.length = 8) (start len : Nat) :
    ((headerWord bs).extractLsb' start len).toNat = leVal bs / 2 ^ start % 2 ^ len := by
  have small : leVal bs < 2 ^ 64 := by
    have fits := leVal_lt bs
    rwa [width] at fits
  rw [BitVec.extractLsb'_toNat, headerWord, BitVec.toNat_ofNat, Nat.mod_eq_of_lt small, Nat.shiftRight_eq_div_pow]

theorem headerWord_bit (bs : List Byte) {k : Nat} (inside : k < 64) :
    (headerWord bs).getLsbD k = decide (leVal bs / 2 ^ k % 2 = 1) := by
  rw [headerWord, BitVec.getLsbD_ofNat, Nat.testBit_eq_decide_div_mod_eq, decide_eq_true inside, Bool.true_and]

theorem decide_eq_one {n : Nat} {b : Bool} (same : n = b.toNat) : decide (n = 1) = b := by
  subst same
  cases b <;> rfl

/-- The header uses no field of the other class (R184). -/
structure DataHeader.Plain (h : DataHeader) : Prop where
  short : h.length < 2 ^ 16
  best : h.cls = .bestEffort → h.counter = 0 ∧ h.slot = 0
  scheduled : h.cls = .scheduled → h.bit = false

theorem DataHeader.Plain.bytes_eq (plain : h.Plain) : h.bytes =
    [1, BitVec.ofNat 8 (h.stream.val + 16 * (h.cls == .bestEffort).toNat + 32 * h.mark.toNat + 64 * h.bit.toNat),
      h.counter, h.slot] ++ le 2 h.length ++ [0, 0] := by
  cases cls : h.cls with
  | bestEffort =>
    obtain ⟨counter, slot⟩ := plain.best cls
    simp [DataHeader.bytes, cls, counter, slot]
  | scheduled => simp [DataHeader.bytes, cls, plain.scheduled cls]

theorem DataHeader.Plain.leVal_bytes (plain : h.Plain) : leVal h.bytes =
    1 + 256 * (h.stream.val + 16 * (h.cls == .bestEffort).toNat + 32 * h.mark.toNat + 64 * h.bit.toNat) +
      65536 * h.counter.toNat + 16777216 * h.slot.toNat + 4294967296 * h.length := by
  have short := plain.short
  have byte := headerByte_toNat h.stream (h.cls == .bestEffort) h.mark h.bit
  have zero : (0 : Byte).toNat = 0 := rfl
  have one : (1 : Byte).toNat = 1 := rfl
  rw [plain.bytes_eq]
  simp only [le, leVal, List.cons_append, List.nil_append, byte, zero, one]
  simp only [BitVec.toNat_ofNat]
  omega

/-- The header of a DATA frame is read as it was written (R184). -/
theorem DataHeader.Plain.read_bytes (plain : h.Plain) : DataHeader.read (headerWord h.bytes) = h := by
  have value := plain.leVal_bytes
  have extract := headerWord_extract h.bytes_length
  have bit := @headerWord_bit h.bytes
  have short := plain.short
  have stream_lt := h.stream.isLt
  have counter_lt := h.counter.isLt
  have slot_lt := h.slot.isLt
  have mark_lt := h.mark.toNat_lt
  have bit_lt := h.bit.toNat_lt
  have best_lt := (h.cls == .bestEffort).toNat_lt
  have stream : ((headerWord h.bytes).extractLsb' 8 4).toNat = h.stream.val := by
    rw [extract, value]
    omega
  have cls : (if (headerWord h.bytes).getLsbD 12 then StreamClass.bestEffort else .scheduled) = h.cls := by
    have best : (headerWord h.bytes).getLsbD 12 = (h.cls == .bestEffort) := by
      rw [bit (by decide), value]
      exact decide_eq_one (by omega)
    rw [best]
    cases h.cls <;> rfl
  have mark : (headerWord h.bytes).getLsbD 13 = h.mark := by
    rw [bit (by decide), value]
    exact decide_eq_one (by omega)
  have seqBit : (headerWord h.bytes).getLsbD 14 = h.bit := by
    rw [bit (by decide), value]
    exact decide_eq_one (by omega)
  have counter : byteAt (headerWord h.bytes) 2 = h.counter := by
    apply BitVec.eq_of_toNat_eq
    rw [byteAt, extract, value]
    omega
  have slot : byteAt (headerWord h.bytes) 3 = h.slot := by
    apply BitVec.eq_of_toNat_eq
    rw [byteAt, extract, value]
    omega
  have length : fieldAt (headerWord h.bytes) 4 2 = h.length := by
    rw [fieldAt, extract, value]
    omega
  simp only [DataHeader.read, stream, cls, mark, seqBit, counter, slot, length]

/-! ### The payload -/

/-- Bytes read as one number are written back from it. -/
theorem bytesOf_leVal {n : Nat} (width : bs.length = n) : bytesOf n (BitVec.ofNat (8 * n) (leVal bs)) = bs := by
  have fits := leVal_lt bs
  have small : leVal bs < 2 ^ (8 * n) := by rwa [pow_mul, ← width]
  rw [bytesOf, BitVec.toNat_ofNat, Nat.mod_eq_of_lt small, ← width, le_leVal]

/-- The full steps of a payload are its bytes, 64 at a time. -/
theorem stepsOf_eq (n : Nat) (payload : List Byte) (full : 64 * n ≤ payload.length) : ∃ steps : List (BitVec 512),
    stepsOf n payload = steps.map .dataArrivalStep ∧ steps.flatMap (bytesOf 64) = payload.take (64 * n) := by
  induction n generalizing payload with
  | zero => exact ⟨[], rfl, rfl⟩
  | succ n ih =>
    obtain ⟨steps, commands, bytes⟩ := ih (payload.drop 64) (by rw [List.length_drop]; omega)
    have width : (payload.take 64).length = 64 := by rw [List.length_take]; omega
    have first : bytesOf 64 (BitVec.ofNat 512 (leVal (payload.take 64))) = payload.take 64 := bytesOf_leVal width
    refine ⟨BitVec.ofNat 512 (leVal (payload.take 64)) :: steps, ?_, ?_⟩
    · rw [stepsOf, if_pos (by omega), commands]
      rfl
    · rw [List.flatMap_cons, first, bytes, Nat.mul_succ, Nat.add_comm, List.take_add]

theorem mem_stepsOf {c : Instr} {n : Nat} {payload : List Byte} (mem : c ∈ stepsOf n payload) :
    ∃ x, c = .dataArrivalStep x := by
  induction n generalizing payload with
  | zero => cases mem
  | succ n ih =>
    rw [stepsOf] at mem
    split at mem
    · rcases List.mem_cons.mp mem with rfl | later
      · exact ⟨_, rfl⟩
      · exact ih later
    · cases mem

/-! ### A DATA frame -/

/-- A DATA frame is read as its header, its payload and its end. -/
theorem commandsOfFrame_data (plain : h.Plain) {payload : List Byte} (width : payload.length = h.length)
    (small : h.length ≤ 1024) :
    commandsOfFrame (sealFrame (h.bytes ++ payload)) = dataCommands (headerWord h.bytes) payload := by
  have length : (sealFrame (h.bytes ++ payload)).length = h.length + 12 := by
    rw [sealFrame_length, List.length_append, h.bytes_length, width]
    omega
  have kind : (sealFrame (h.bytes ++ payload)).getD 0 0 = 1 := rfl
  have header : (sealFrame (h.bytes ++ payload)).take 8 = h.bytes := by
    rw [sealFrame, List.append_assoc]
    exact List.take_left' h.bytes_length
  have announced : (half (sealFrame (h.bytes ++ payload)) 4).toNat = h.length := by
    rw [half_le (v := h.length) rfl plain.short, BitVec.toNat_ofNat, Nat.mod_eq_of_lt plain.short]
  have bytes : ((sealFrame (h.bytes ++ payload)).drop 8).take h.length = payload := by
    rw [sealFrame, List.append_assoc, List.drop_left' h.bytes_length]
    exact List.take_left' width
  unfold commandsOfFrame
  rw [if_pos ⟨kind, by omega⟩]
  simp only [announced, length, header, checkPasses_sealFrame, Nat.add_sub_cancel, min_self, bytes, small, and_self,
    if_true]
  rfl

/-- The end of a DATA frame is that of its class. -/
theorem DataHeader.Plain.dataCommands_eq (plain : h.Plain) (payload : List Byte) :
    ∃ (steps : List (BitVec 512)) (rest : List Byte),
      dataCommands (headerWord h.bytes) payload = .dataHeaderArrival (headerWord h.bytes) ::
        steps.map .dataArrivalStep ++ [match h.cls with
          | .bestEffort => .dataBestEffortEnd rest
          | .scheduled => .dataScheduledEnd rest] ∧
      steps.flatMap (bytesOf 64) ++ rest = payload ∧ rest.length < 64 := by
  obtain ⟨steps, commands, bytes⟩ := stepsOf_eq (payload.length / 64) payload (Nat.mul_div_le _ _)
  have cls : (DataHeader.read (headerWord h.bytes)).cls = h.cls := by rw [plain.read_bytes]
  refine ⟨steps, payload.drop (64 * (payload.length / 64)), ?_, ?_, ?_⟩
  · rw [← cls, dataCommands]
    dsimp only [DataHeader.read]
    rw [commands]
    cases (headerWord h.bytes).getLsbD 12 <;> rfl
  · rw [bytes, List.take_append_drop]
  · rw [List.length_drop]
    omega

/-! ### Damaged frames -/

/-- What is read as one command of the link has the length of its kind. -/
theorem commandOfControl_some {c : Instr} (read : commandOfControl bs = some c) :
    bs.length = 4 ∧ (bs.getD 0 0).toNat ∈ [2, 3, 4, 5, 6, 7, 8, 11, 12] ∨
      (bs.getD 0 0).toNat = 9 ∧ bs.length = 12 ∨
      (bs.getD 0 0).toNat = 10 ∧ 8 ≤ bs.length ∧ bs.length = 8 + (half bs 4).toNat := by
  unfold commandOfControl at read
  dsimp only at read
  generalize (bs.getD 0 0).toNat = kind at read ⊢
  by_cases four : bs.length = 4
  · refine .inl ⟨four, ?_⟩
    by_contra other
    simp only [List.mem_cons, List.not_mem_nil, or_false, not_or] at other
    simp only [four, other, if_true, if_false] at read
    cases read
  · rw [if_neg four] at read
    split at read
    · next hello => exact .inr (.inl hello)
    split at read
    · next chunk => exact .inr (.inr chunk)
    · cases read

/-- The commands of a frame that ends as an invalid one: no command but its header and steps comes before. -/
def EndsInvalid (cs : List Instr) : Prop :=
  cs.getLast? = some .invalidFrame ∧
    ∀ c ∈ cs, c = .invalidFrame ∨ (∃ w, c = .dataHeaderArrival w) ∨ ∃ x, c = .dataArrivalStep x

theorem endsInvalid_alone : EndsInvalid [.invalidFrame] := ⟨rfl, fun _ mem => .inl (List.mem_singleton.mp mem)⟩

theorem endsInvalid_pieces (header : BitVec 64) (n : Nat) (payload : List Byte) :
    EndsInvalid (.dataHeaderArrival header :: stepsOf n payload ++ [.invalidFrame]) := by
  refine ⟨List.getLast?_concat .., fun c mem => ?_⟩
  rcases List.mem_append.mp mem with piece | last
  · rcases List.mem_cons.mp piece with rfl | step
    · exact .inr (.inl ⟨header, rfl⟩)
    · exact .inr (.inr (mem_stepsOf step))
  · exact .inl (List.mem_singleton.mp last)

theorem half_toNat (bs : List Byte) (k : Nat) : (half bs k).toNat = leVal ((bs.drop k).take 2) := by
  have fits := leVal_lt ((bs.drop k).take 2)
  have width : ((bs.drop k).take 2).length ≤ 2 := List.length_take_le ..
  have small : leVal ((bs.drop k).take 2) < 2 ^ 16 := fits.trans_le (Nat.pow_le_pow_right (n := 256) (by decide) width)
  rw [half, BitVec.toNat_ofNat, Nat.mod_eq_of_lt small]

/-- A field of a frame lies before its last four bytes. -/
theorem half_take {frame : List Byte} {k n : Nat} (inside : k + 2 ≤ n) : half (frame.take n) k = half frame k := by
  rw [half, half, List.drop_take, List.take_take, min_eq_left (by omega)]

/-- A frame is damaged: its check value differs, or its kind or its length is not one of the twelve. -/
def Damaged (frame : List Byte) : Prop :=
  let kind := (frame.getD 0 0).toNat
  let bytes := frame.length - 4
  let announced := leVal ((frame.drop 4).take 2)
  checkPasses frame = false ∨ 12 < kind ∨ kind = 0 ∨
    (kind = 1 ∧ (bytes < 8 ∨ bytes ≠ 8 + announced ∨ 1024 < announced)) ∨ (kind = 9 ∧ bytes ≠ 12) ∨
    (kind = 10 ∧ (bytes < 8 ∨ bytes ≠ 8 + announced)) ∨ (kind ∈ [2, 3, 4, 5, 6, 7, 8, 11, 12] ∧ bytes ≠ 4)

section

variable {frame : List Byte}

/-- A damaged DATA frame is not decided (R110). -/
theorem Damaged.not_data (damaged : Damaged frame) (kind : frame.getD 0 0 = 1) :
    ¬(checkPasses frame ∧ frame.length = (half frame 4).toNat + 12 ∧ (half frame 4).toNat ≤ 1024) := by
  rintro ⟨passes, length, short⟩
  rw [half_toNat] at length short
  have one : (frame.getD 0 0).toNat = 1 := by rw [kind]; rfl
  unfold Damaged at damaged
  simp only [one, passes, Bool.true_eq_false, false_or, List.mem_cons, List.not_mem_nil, or_false] at damaged
  omega

/-- A damaged control frame is no command (R110, R185). -/
theorem Damaged.not_control (damaged : Damaged frame) (passes : checkPasses frame = true) :
    commandOfControl (frame.take (frame.length - 4)) = none := by
  cases read : commandOfControl (frame.take (frame.length - 4)) with
  | none => rfl
  | some c =>
    exfalso
    have length : (frame.take (frame.length - 4)).length = frame.length - 4 := by
      rw [List.length_take]
      omega
    have shape := commandOfControl_some read
    rw [length] at shape
    have filled : 0 < frame.length - 4 := by omega
    rw [getD_take filled] at shape
    unfold Damaged at damaged
    dsimp only at damaged
    rw [← half_toNat] at damaged
    generalize (frame.getD 0 0).toNat = kind at shape damaged
    simp only [passes, Bool.true_eq_false, false_or, List.mem_cons, List.not_mem_nil, or_false] at shape damaged
    rcases shape with four | twelve | ⟨ten, long, announced⟩
    · omega
    · omega
    · rw [half_take (by omega)] at announced
      omega

/-- A damaged frame ends as an invalid one. -/
theorem Damaged.endsInvalid (damaged : Damaged frame) : EndsInvalid (commandsOfFrame frame) := by
  unfold commandsOfFrame
  dsimp only
  split
  · next data =>
    rw [if_neg (damaged.not_data data.1)]
    exact endsInvalid_pieces ..
  · split
    · next passes =>
      rw [damaged.not_control passes]
      exact endsInvalid_alone
    · exact endsInvalid_alone

end

end

/-- Settles O55: control frames, DATA frames and damaged frames in turn. -/
theorem framesAreReadAsSent : Obligations.FramesAreReadAsSent := by
  refine ⟨fun f short => ?_, fun h k payload width small best scheduled => ?_, fun frame => Damaged.endsInvalid⟩
  · exact commandsOfFrame_control f.body_kind.1 f.body_kind.2 (commandOfControl_body f short)
  · have plain : h.Plain := ⟨by omega, best, scheduled⟩
    obtain ⟨steps, rest, commands, bytes, short⟩ := plain.dataCommands_eq payload
    have read : DataHeader.read (headerWord h.bytes) = h := plain.read_bytes
    have kind : byteAt (headerWord h.bytes) 0 = 1 := by
      have value := plain.leVal_bytes
      apply BitVec.eq_of_toNat_eq
      rw [byteAt, headerWord_extract h.bytes_length, value]
      change _ = 1
      omega
    exact ⟨headerWord h.bytes, steps, rest, (commandsOfFrame_data plain width small).trans commands, kind, read, bytes,
      short⟩

end Sys2Proof.Machine
end
